-- ==== Sys2Proof/Word.lean ====
section
/-! DEFINITION. The word types of FISH8 CORE and nothing else (00_scope.md R4, R6): all values are unsigned. -/

namespace Sys2Proof

/-- 8 bits: a memory cell, a general register, a timer (R4). -/
abbrev Byte := BitVec 8

/-- 16 bits: an instruction, `pc`, `I`, a stack entry (R4). -/
abbrev Word := BitVec 16

/-- 12 bits: the `nnn` operand field (R6, R62). -/
abbrev Addr12 := BitVec 12

end Sys2Proof
end

