-- ==== Sys2Proof/Config.lean ====
section
/-! DEFINITION. What is fixed for the machine: the parameters of 00_scope.md R4, and the free values (opaque, no body).
The parameters R5 leaves open stand elsewhere: `FONT_BASE`, `FONT_DATA` in Machine/Memory.lean, `RET_RESUME_OFFSET` in
Machine/Operands.lean, `FREQUENCY` and `REFRESH_RATE` in State. -/

namespace Sys2Proof

/-- `MEM_SIZE`: addresses 0x000 to 0xFFF (R4, R40). -/
abbrev Config.memSize : Nat := 0x1000

/-- `PROG_BASE`: where the program image is placed and the first instruction is fetched (R4, R29). -/
abbrev Config.progBase : Nat := 0x200

/-- `PC_MIN` (R4, R15). -/
abbrev Config.pcMin : Nat := 0x200

/-- `PC_MAX` (R4, R15). -/
abbrev Config.pcMax : Nat := 0xFFF

/-- `STACK_DEPTH` (R4, R17). -/
abbrev Config.stackDepth : Nat := 16

/-- `FB_W` (R4, R20). -/
abbrev Config.fbWidth : Nat := 64

/-- `FB_H` (R4, R20). -/
abbrev Config.fbHeight : Nat := 32

/-- `NKEYS` (R4, R21). -/
abbrev Config.nKeys : Nat := 16

/-- FREE VALUE. The byte the n-th executed RAND draws: "returns 8 bits", no algorithm, no seed (R24, R112). One
value for each count of draws, whichever run it is: DESIGN CHOICE, log 9. -/
opaque Config.randomByte : Nat → Byte

/-- FREE VALUE. The 16 levels on `key_in` at the n-th poll for which State.hostIn holds no sample: "any 16 bits the host
presents" (R163). Log 10. -/
opaque Config.keyLevels : Nat → Vector Bool 16

/-- FREE VALUE. The level on `quit_in` at the n-th poll for which State.hostIn holds no sample (R163, R166). Log 10. -/
opaque Config.quitLevel : Nat → Bool

end Sys2Proof
end

