-- ==== Sys2Proof/Syntax.lean ====
section
/-! DEFINITION. The instructions of FISH8 CORE: one constructor per row of 30_encoding.md R65, and the class
`unrecognized` of R66. The nibbles R64 calls ignored in groups 0, 5 and 9 are no operands; the `Y` field of SHR and SHL is a
field of the encoding (R64, R109, R111) and is kept. -/

namespace Sys2Proof

/-- A register number, a nibble of the instruction: all sixteen are legal in every register field (R62). -/
abbrev Reg := Fin 16

/-- The instruction set (R65, R66). `x` and `y` are the fields `n1` and `n2`, `kk` the low byte, `nnn` the low 12 bits. -/
inductive Instr where
  | cls
  | ret
  | jmp (nnn : Addr12)
  | call (nnn : Addr12)
  | skipCmp (x : Reg) (kk : Byte)
  | skipNcmp (x : Reg) (kk : Byte)
  | skipRcmp (x y : Reg)
  | sne (x y : Reg)
  | mvi (x : Reg) (kk : Byte)
  | addImm (x : Reg) (kk : Byte)
  | mov (x y : Reg)
  | or (x y : Reg)
  | and (x y : Reg)
  | xor (x y : Reg)
  | add (x y : Reg)
  | sub (x y : Reg)
  | shr (x y : Reg)
  | subn (x y : Reg)
  | shl (x y : Reg)
  | ldi (nnn : Addr12)
  | jmpV (nnn : Addr12)
  | rand (x : Reg) (kk : Byte)
  | drw (x y : Reg) (n : Fin 16)
  | skipKeyx (x : Reg)
  | skipnKeyx (x : Reg)
  | ldxDt (x : Reg)
  | ldxKey (x : Reg)
  | lddtX (x : Reg)
  | ldstX (x : Reg)
  | addiX (x : Reg)
  | ldiFx (x : Reg)
  | ldbX (x : Reg)
  | ldiAll (x : Reg)
  | ldxAll (x : Reg)
  | unrecognized (op : Word)
  deriving DecidableEq, Repr

/-- A row of the opcode map: `op` selects it exactly when `op & mask = pattern` (R65; the table's column "match"). -/
structure OpRow where
  number  : Nat
  pattern : Word
  mask    : Word
  deriving DecidableEq, Repr

/-- Why a list of bytes is no instruction: there is one length, 2 bytes (R60). -/
inductive DecodeError where
  /-- No byte was given. -/
  | noBytes
  /-- One byte was given; the second is missing. -/
  | oneByte
  deriving DecidableEq, Repr

end Sys2Proof
end

