-- ==== Sys2Proof/WellFormed.lean ====
section
/-! DEFINITION. Which terms of Instr stand for an instruction word. Every operand field is as wide as its nibbles (R61, R62),
so the one check is that the word `unrecognized` carries is one of the 13872 of 30_encoding.md R66. -/

namespace Sys2Proof

/-- The second bytes R65 gives a meaning in group F. -/
def groupFLowBytes : List Nat := [0x07, 0x0A, 0x15, 0x18, 0x1E, 0x29, 0x33, 0x55, 0x65]

/-- The words of 30_encoding.md R66, group by group as its table lists them. -/
def isUnrecognizedWord (op : Word) : Bool :=
  let low := op.toNat % 0x100
  match op.toNat / 0x1000 with
  | 0x0 => low != 0xE0 && low != 0xEE
  | 0x8 => [0x8, 0x9, 0xA, 0xB, 0xC, 0xD, 0xF].contains (op.toNat % 0x10)
  | 0xE => low != 0x9E && low != 0xA1
  | 0xF => !groupFLowBytes.contains low
  | _   => false

/-- Well-formed: the term is what some instruction word decodes to. -/
def Instr.wellFormed : Instr → Bool
  | .unrecognized op => isUnrecognizedWord op
  | .cls | .ret | .jmp _ | .call _ | .skipCmp _ _ | .skipNcmp _ _ | .skipRcmp _ _ | .sne _ _ | .mvi _ _ | .addImm _ _
  | .mov _ _ | .or _ _ | .and _ _ | .xor _ _ | .add _ _ | .sub _ _ | .shr _ _ | .subn _ _ | .shl _ _ | .ldi _ | .jmpV _
  | .rand _ _ | .drw _ _ _ | .skipKeyx _ | .skipnKeyx _ | .ldxDt _ | .ldxKey _ | .lddtX _ | .ldstX _ | .addiX _ | .ldiFx _
  | .ldbX _ | .ldiAll _ | .ldxAll _ => true

end Sys2Proof
end

