-- ==== Sys2Proof/Decode.lean ====
section
/-! DEFINITION. The opcode map, the decoder and, after it, the encoder (30_encoding.md R60 to R69). The numeric values of 32 of
the 34 rows are the spec's from general knowledge (GK1, D16): log 14. -/

namespace Sys2Proof

/-- The map of R65, rows 1 to 34 in its order. -/
def opRows : List OpRow :=
  [⟨1, 0x00E0, 0xF0FF⟩, ⟨2, 0x00EE, 0xF0FF⟩, ⟨3, 0x1000, 0xF000⟩, ⟨4, 0x2000, 0xF000⟩, ⟨5, 0x3000, 0xF000⟩,
   ⟨6, 0x4000, 0xF000⟩, ⟨7, 0x5000, 0xF000⟩, ⟨8, 0x9000, 0xF000⟩, ⟨9, 0x6000, 0xF000⟩, ⟨10, 0x7000, 0xF000⟩] ++
  [⟨11, 0x8000, 0xF00F⟩, ⟨12, 0x8001, 0xF00F⟩, ⟨13, 0x8002, 0xF00F⟩, ⟨14, 0x8003, 0xF00F⟩, ⟨15, 0x8004, 0xF00F⟩,
   ⟨16, 0x8005, 0xF00F⟩, ⟨17, 0x8006, 0xF00F⟩, ⟨18, 0x8007, 0xF00F⟩, ⟨19, 0x800E, 0xF00F⟩] ++
  [⟨20, 0xA000, 0xF000⟩, ⟨21, 0xB000, 0xF000⟩, ⟨22, 0xC000, 0xF000⟩, ⟨23, 0xD000, 0xF000⟩] ++
  [⟨24, 0xE09E, 0xF0FF⟩, ⟨25, 0xE0A1, 0xF0FF⟩, ⟨26, 0xF007, 0xF0FF⟩, ⟨27, 0xF00A, 0xF0FF⟩, ⟨28, 0xF015, 0xF0FF⟩,
   ⟨29, 0xF018, 0xF0FF⟩, ⟨30, 0xF01E, 0xF0FF⟩, ⟨31, 0xF029, 0xF0FF⟩, ⟨32, 0xF033, 0xF0FF⟩, ⟨33, 0xF055, 0xF0FF⟩,
   ⟨34, 0xF065, 0xF0FF⟩]

/-- The number of an instruction's row in R65; 35 is the default row of opcode_table.json (R66). -/
def Instr.rowNumber : Instr → Nat
  | .cls => 1 | .ret => 2 | .jmp _ => 3 | .call _ => 4 | .skipCmp _ _ => 5 | .skipNcmp _ _ => 6 | .skipRcmp _ _ => 7
  | .sne _ _ => 8 | .mvi _ _ => 9 | .addImm _ _ => 10 | .mov _ _ => 11 | .or _ _ => 12 | .and _ _ => 13 | .xor _ _ => 14
  | .add _ _ => 15 | .sub _ _ => 16 | .shr _ _ => 17 | .subn _ _ => 18 | .shl _ _ => 19 | .ldi _ => 20 | .jmpV _ => 21
  | .rand _ _ => 22 | .drw _ _ _ => 23 | .skipKeyx _ => 24 | .skipnKeyx _ => 25 | .ldxDt _ => 26 | .ldxKey _ => 27
  | .lddtX _ => 28 | .ldstX _ => 29 | .addiX _ => 30 | .ldiFx _ => 31 | .ldbX _ => 32 | .ldiAll _ => 33 | .ldxAll _ => 34
  | .unrecognized _ => 35

/-- `n0 = op[15:12]` (R61). -/
def fieldN0 (op : Word) : Fin 16 := (op.extractLsb' 12 4).toFin

/-- `n1 = op[11:8]`, the register number `X` (R61). -/
def fieldN1 (op : Word) : Fin 16 := (op.extractLsb' 8 4).toFin

/-- `n2 = op[7:4]`, the register number `Y` (R61). -/
def fieldN2 (op : Word) : Fin 16 := (op.extractLsb' 4 4).toFin

/-- `n3 = op[3:0]`, the row count of DRW and the sub-opcode of group 8 (R61). -/
def fieldN3 (op : Word) : Fin 16 := (op.extractLsb' 0 4).toFin

/-- `kk = op[7:0]` (R61). -/
def fieldKk (op : Word) : Byte := op.extractLsb' 0 8

/-- `nnn = op[11:0]` (R61). -/
def fieldNnn (op : Word) : Addr12 := op.extractLsb' 0 12

/-- Group 0: the low byte discriminates, `n1` is ignored (R63, R64). -/
def decodeGroup0 (op : Word) : Instr :=
  match (fieldKk op).toNat with
  | 0xE0 => .cls
  | 0xEE => .ret
  | _ => .unrecognized op

/-- Group 8: `n3` discriminates (R63). -/
def decodeGroup8 (op : Word) : Instr :=
  let x := fieldN1 op
  let y := fieldN2 op
  match (fieldN3 op).val with
  | 0x0 => .mov x y
  | 0x1 => .or x y
  | 0x2 => .and x y
  | 0x3 => .xor x y
  | 0x4 => .add x y
  | 0x5 => .sub x y
  | 0x6 => .shr x y
  | 0x7 => .subn x y
  | 0xE => .shl x y
  | _ => .unrecognized op

/-- Group E: the low byte discriminates (R63). -/
def decodeGroupE (op : Word) : Instr :=
  match (fieldKk op).toNat with
  | 0x9E => .skipKeyx (fieldN1 op)
  | 0xA1 => .skipnKeyx (fieldN1 op)
  | _ => .unrecognized op

/-- Group F: the low byte discriminates (R63). -/
def decodeGroupF (op : Word) : Instr :=
  let x := fieldN1 op
  match (fieldKk op).toNat with
  | 0x07 => .ldxDt x
  | 0x0A => .ldxKey x
  | 0x15 => .lddtX x
  | 0x18 => .ldstX x
  | 0x1E => .addiX x
  | 0x29 => .ldiFx x
  | 0x33 => .ldbX x
  | 0x55 => .ldiAll x
  | 0x65 => .ldxAll x
  | _ => .unrecognized op

/-- The decoder: total on the 65536 words, by `n0` and, in groups 0, 8, E and F, by the secondary discriminator (R63 to R66). -/
def decodeWord (op : Word) : Instr :=
  match (fieldN0 op).val with
  | 0x0 => decodeGroup0 op
  | 0x1 => .jmp (fieldNnn op)
  | 0x2 => .call (fieldNnn op)
  | 0x3 => .skipCmp (fieldN1 op) (fieldKk op)
  | 0x4 => .skipNcmp (fieldN1 op) (fieldKk op)
  | 0x5 => .skipRcmp (fieldN1 op) (fieldN2 op)
  | 0x6 => .mvi (fieldN1 op) (fieldKk op)
  | 0x7 => .addImm (fieldN1 op) (fieldKk op)
  | 0x8 => decodeGroup8 op
  | 0x9 => .sne (fieldN1 op) (fieldN2 op)
  | 0xA => .ldi (fieldNnn op)
  | 0xB => .jmpV (fieldNnn op)
  | 0xC => .rand (fieldN1 op) (fieldKk op)
  | 0xD => .drw (fieldN1 op) (fieldN2 op) (fieldN3 op)
  | 0xE => decodeGroupE op
  | _ => decodeGroupF op

/-- `op = (byte at pc) ## (byte at pc + 1)` (R60, 20_memory.md R43). -/
def wordOfBytes (hi lo : Byte) : Word := hi ++ lo

/-- The first byte of a word in memory, `op[15:8]` (R69). -/
def highByte (op : Word) : Byte := op.extractLsb' 8 8

/-- The second byte of a word in memory, `op[7:0]` (R69). -/
def lowByte (op : Word) : Byte := op.extractLsb' 0 8

/-- The decoder on bytes: the instruction at the head of a byte list and the bytes after it, or why there is none. -/
def decode : List Byte → Except DecodeError (Instr × List Byte)
  | [] => .error .noBytes
  | [_] => .error .oneByte
  | hi :: lo :: rest => .ok (decodeWord (wordOfBytes hi lo), rest)

/-- The bits of opcode_table.json's numbering as the word they are: bit 0 is the least significant bit of `op` (R6), the bits
above `nbits` are 0. -/
def tableWord (nbits w : Nat) : Word := BitVec.ofNat 16 (w % 2 ^ nbits)

/-- What the decoder reads from a table word laid out as the hardware stores it, high byte first (R43). -/
def decodeTableWord (nbits w : Nat) : Option Instr :=
  match decode [highByte (tableWord nbits w), lowByte (tableWord nbits w)] with
  | .ok (i, _) => some i
  | .error _ => none

/-- A register number or row count as the 4 bits of its nibble (R61). -/
def nibbleBits (r : Fin 16) : BitVec 4 := BitVec.ofFin r

/-- Format NNN: `op = match | nnn` (R69). -/
def encodeNNN (m : Word) (nnn : Addr12) : Word := m ||| nnn.setWidth 16

/-- Format X: `op = match | (X << 8)` (R69). -/
def encodeX (m : Word) (x : Reg) : Word := m ||| ((nibbleBits x).setWidth 16 <<< 8)

/-- Format XKK: `op = match | (X << 8) | kk` (R69). -/
def encodeXKK (m : Word) (x : Reg) (kk : Byte) : Word := m ||| ((nibbleBits x).setWidth 16 <<< 8) ||| kk.setWidth 16

/-- Format XY: `op = match | (X << 8) | (Y << 4)` (R69). -/
def encodeXY (m : Word) (x y : Reg) : Word := m ||| ((nibbleBits x).setWidth 16 <<< 8) ||| ((nibbleBits y).setWidth 16 <<< 4)

/-- Format XYN: `op = match | (X << 8) | (Y << 4) | n` (R69). -/
def encodeXYN (m : Word) (x y : Reg) (n : Fin 16) : Word :=
  m ||| ((nibbleBits x).setWidth 16 <<< 8) ||| ((nibbleBits y).setWidth 16 <<< 4) ||| (nibbleBits n).setWidth 16

/-- The encoder, R69 with the values of R65. Ignored nibbles are encoded as 0 (R68). -/
def encode : Instr → Word
  | .cls => 0x00E0
  | .ret => 0x00EE
  | .jmp nnn => encodeNNN 0x1000 nnn
  | .call nnn => encodeNNN 0x2000 nnn
  | .skipCmp x kk => encodeXKK 0x3000 x kk
  | .skipNcmp x kk => encodeXKK 0x4000 x kk
  | .skipRcmp x y => encodeXY 0x5000 x y
  | .sne x y => encodeXY 0x9000 x y
  | .mvi x kk => encodeXKK 0x6000 x kk
  | .addImm x kk => encodeXKK 0x7000 x kk
  | .mov x y => encodeXY 0x8000 x y
  | .or x y => encodeXY 0x8001 x y
  | .and x y => encodeXY 0x8002 x y
  | .xor x y => encodeXY 0x8003 x y
  | .add x y => encodeXY 0x8004 x y
  | .sub x y => encodeXY 0x8005 x y
  | .shr x y => encodeXY 0x8006 x y
  | .subn x y => encodeXY 0x8007 x y
  | .shl x y => encodeXY 0x800E x y
  | .ldi nnn => encodeNNN 0xA000 nnn
  | .jmpV nnn => encodeNNN 0xB000 nnn
  | .rand x kk => encodeXKK 0xC000 x kk
  | .drw x y n => encodeXYN 0xD000 x y n
  | .skipKeyx x => encodeX 0xE09E x
  | .skipnKeyx x => encodeX 0xE0A1 x
  | .ldxDt x => encodeX 0xF007 x
  | .ldxKey x => encodeX 0xF00A x
  | .lddtX x => encodeX 0xF015 x
  | .ldstX x => encodeX 0xF018 x
  | .addiX x => encodeX 0xF01E x
  | .ldiFx x => encodeX 0xF029 x
  | .ldbX x => encodeX 0xF033 x
  | .ldiAll x => encodeX 0xF055 x
  | .ldxAll x => encodeX 0xF065 x
  | .unrecognized op => op

/-- The two bytes of an instruction in memory, in ascending address order (R69). -/
def encodeBytes (i : Instr) : List Byte := [highByte (encode i), lowByte (encode i)]

/-- A register in the spec's assembler spelling, `V0` to `VF` (R68). -/
def Reg.toAsm (r : Reg) : String := "V" ++ String.singleton (Nat.digitChar r.val).toUpper

/-- An instruction in the spec's assembler spelling, numbers in decimal (R68). An unrecognised word is its two bytes. -/
def Instr.toAsm : Instr → String
  | .cls => "CLS"
  | .ret => "RET"
  | .jmp nnn => "JMP " ++ toString nnn.toNat
  | .call nnn => "CALL " ++ toString nnn.toNat
  | .skipCmp x kk => "SKIP.CMP " ++ Reg.toAsm x ++ "," ++ toString kk.toNat
  | .skipNcmp x kk => "SKIP.NCMP " ++ Reg.toAsm x ++ "," ++ toString kk.toNat
  | .skipRcmp x y => "SKIP.RCMP " ++ Reg.toAsm x ++ "," ++ Reg.toAsm y
  | .sne x y => "SNE " ++ Reg.toAsm x ++ "," ++ Reg.toAsm y
  | .mvi x kk => "MVI " ++ Reg.toAsm x ++ "," ++ toString kk.toNat
  | .addImm x kk => "ADD " ++ Reg.toAsm x ++ "," ++ toString kk.toNat
  | .mov x y => "MOV " ++ Reg.toAsm x ++ "," ++ Reg.toAsm y
  | .or x y => "OR " ++ Reg.toAsm x ++ "," ++ Reg.toAsm y
  | .and x y => "AND " ++ Reg.toAsm x ++ "," ++ Reg.toAsm y
  | .xor x y => "XOR " ++ Reg.toAsm x ++ "," ++ Reg.toAsm y
  | .add x y => "ADD " ++ Reg.toAsm x ++ "," ++ Reg.toAsm y
  | .sub x y => "SUB " ++ Reg.toAsm x ++ "," ++ Reg.toAsm y
  | .shr x _ => "SHR " ++ Reg.toAsm x
  | .subn x y => "SUBN " ++ Reg.toAsm x ++ "," ++ Reg.toAsm y
  | .shl x _ => "SHL " ++ Reg.toAsm x
  | .ldi nnn => "LDI " ++ toString nnn.toNat
  | .jmpV nnn => "JMP.V " ++ toString nnn.toNat
  | .rand x kk => "RAND " ++ Reg.toAsm x ++ "," ++ toString kk.toNat
  | .drw x y n => "DRW " ++ Reg.toAsm x ++ "," ++ Reg.toAsm y ++ "," ++ toString n.val
  | .skipKeyx x => "SKIP.KEYX " ++ Reg.toAsm x
  | .skipnKeyx x => "SKIPN.KEYX " ++ Reg.toAsm x
  | .ldxDt x => "LDX.DT " ++ Reg.toAsm x
  | .ldxKey x => "LDX.KEY " ++ Reg.toAsm x
  | .lddtX x => "LDDT.X " ++ Reg.toAsm x
  | .ldstX x => "LDST.X " ++ Reg.toAsm x
  | .addiX x => "ADDI.X " ++ Reg.toAsm x
  | .ldiFx x => "LDI.FX " ++ Reg.toAsm x
  | .ldbX x => "LDB.X " ++ Reg.toAsm x
  | .ldiAll x => "LDI.ALL " ++ Reg.toAsm x
  | .ldxAll x => "LDX.ALL " ++ Reg.toAsm x
  | .unrecognized op => ".byte " ++ toString (highByte op).toNat ++ "," ++ toString (lowByte op).toNat

end Sys2Proof
end

