-- ==== Sys2Proof/Machine/State.lean ====
section
/-! DEFINITION. The state of FISH8 CORE: 10_state.md R10 to R26, and the model's own fields (marked MODEL, INVENTORY.md
'## State'). Plain data. -/

namespace Sys2Proof.Machine

/-- `mem` (R11) as (address, byte) pairs: addresses strictly rising, no entry equal to what an unlisted address reads as
(Memory.wf). An unlisted address reads as its reset contents (Memory.resetByte). -/
abbrev Memory := List Host.Cell

/-- `fb` (R20): row 0 to 31, in each row the 64 columns; `fb[col][row]` is bit `col` of row `row` (log 27). -/
abbrev Framebuffer := Vector (BitVec 64) 32

/-- The six fatal conditions (60_exceptions.md R150), each with the "info" its rule passes to `raise`. They are TAKEN, not
faulted: Machine.raiseFatal is what R151 says one does (log 1). -/
inductive Fatal where
  /-- 1: CheckPc, the new `pc` is outside [0x200, 0xFFF]. -/
  | pcOutOfRange (pc : BitVec 16)
  /-- 2: CALL with `sp = 16`; info is the CALL's `pc`. -/
  | stackOverflow (pc : BitVec 16)
  /-- 3: RET with `sp = 0`; info is the RET's `pc`. -/
  | stackUnderflow (pc : BitVec 16)
  /-- 4: an access above 0xFFF; info is `I` (R47), or the address itself for a single access (R41). -/
  | memoryBounds (addr : Nat)
  /-- 5: CheckPc, the new `pc` is odd and in range. -/
  | pcMisaligned (pc : BitVec 16)
  /-- 6: SKIP.KEYX or SKIPN.KEYX with `x[X] > 15`; info is `x[X]`. -/
  | keyIndexOutOfRange (k : BitVec 8)
  deriving DecidableEq, Repr

/-- The first column of R150's table. -/
def Fatal.number : Fatal → Nat
  | .pcOutOfRange _ => 1
  | .stackOverflow _ => 2
  | .stackUnderflow _ => 3
  | .memoryBounds _ => 4
  | .pcMisaligned _ => 5
  | .keyIndexOutOfRange _ => 6

/-- An event on port `diag_out` (R27, R151, R155). -/
inductive Diag where
  | fatal (k : Fatal)
  | unrecognized (pc op : BitVec 16)
  deriving DecidableEq, Repr

/-- One sample of the host's inputs at a poll: `key_in` and `quit_in` (R27, R163, R166). -/
structure HostSample where
  keys : Vector Bool 16
  quit : Bool
  deriving DecidableEq, Repr

/-- The outcome every instruction sets exactly once (00_scope.md R6, 40_control_flow.md R81). -/
inductive PcOutcome where
  | advance2
  | advance4
  | hold
  | setPc (a : BitVec 16)
  deriving DecidableEq, Repr

/-- Why a step stops with a fault. -/
inductive Fault where
  /-- Raised by step alone: `pc` or `pc + 1` is above 0xFFF at a fetch. The spec says this cannot happen between steps and
  names no exception for it (R15, R47, R150), so no state a run reaches raises it. SAFE: the model stops (log 3). -/
  | fetchOutsideMemory (pc : BitVec 16)
  deriving DecidableEq, Repr

/-- Why a step has no meaning. -/
inductive Refusal where
  /-- Raised by an arm of exec for an instruction that has no meaning yet. No arm raises it. SAFE: the model stops. -/
  | notModelled (mnemonic : String)
  deriving DecidableEq, Repr

/-- The state (R10). -/
structure State where
  /-- The 4096 bytes (R11). -/
  mem : Memory
  /-- The general registers; `x[15]` is also the flag output (R12, R13). -/
  x : Vector (BitVec 8) 16
  /-- The program counter (R14). -/
  pc : BitVec 16
  /-- The index register (R16). -/
  I : BitVec 16
  /-- The call stack's sixteen entries, oldest first; those at `sp` and above are dead but kept (R17). -/
  stack : Vector (BitVec 16) 16
  /-- The count of saved addresses, in [0,16] (R17). -/
  sp : Fin 17
  /-- The delay timer (R18). -/
  dt : BitVec 8
  /-- The sound timer (R19). -/
  st : BitVec 8
  /-- The framebuffer (R20). -/
  fb : Framebuffer
  /-- The key levels of the last poll (R21). -/
  key : Vector Bool 16
  /-- The key levels as of the last completed frame (R21). -/
  keyprev : Vector Bool 16
  /-- Set by DRW, cleared at the render hand-over (R22). -/
  drawRequested : Bool
  /-- Set by a fatal condition or a quit; never cleared (R23). -/
  exitRequested : Bool
  /-- Steps already executed in the current batch (R25). -/
  frameStep : Nat
  /-- MODEL: how many bytes RAND has drawn, in place of `rng` (R24, log 9). -/
  draws : Nat
  /-- MODEL: what the host will present at the coming polls, oldest first (log 10). -/
  hostIn : List HostSample
  /-- MODEL: how many polls found hostIn empty (log 10). -/
  polls : Nat
  /-- MODEL: the last picture handed over on `fb_out` (R164, log 11). -/
  fbOut : Option Framebuffer
  /-- MODEL: `st` as the step before the last frame boundary left it, which the audio collaborator may sample before the tick
  (20_memory.md R50, log 32). -/
  stBeforeTick : BitVec 8
  /-- MODEL: what was emitted on `diag_out`, newest first (log 11). -/
  diagOut : List Diag
  /-- MODEL: the open parameter `FREQUENCY` (R5, D13, log 8). No step changes it. -/
  frequency : Nat
  /-- MODEL: the open parameter `REFRESH_RATE` (R5, D13, log 8). No step changes it. -/
  refreshRate : Nat
  deriving DecidableEq, Repr

/-- The machine right after reset with an empty program image (R28, R180, R181). Stated by the spec: memory, `pc`,
`frame_step`. By the spec's decision D7: the other fields of R28 (log 4). The MODEL's fields: logs 8 to 11 and 32. -/
def State.reset : State where
  mem := []
  x := Vector.replicate 16 0
  pc := 0x200
  I := 0
  stack := Vector.replicate 16 0
  sp := 0
  dt := 0
  st := 0
  fb := Vector.replicate 32 0
  key := Vector.replicate 16 false
  keyprev := Vector.replicate 16 false
  drawRequested := false
  exitRequested := false
  frameStep := 0
  draws := 0
  hostIn := []
  polls := 0
  fbOut := none
  stBeforeTick := 0
  diagOut := []
  frequency := 60000
  refreshRate := 60

end Sys2Proof.Machine
end

