-- ==== Sys2Proof/Machine/Memory.lean ====
section
/-! DEFINITION. Memory as a canonical list of cells: what an unlisted address reads as, and reading and writing one byte
(10_state.md R11, R28, R30, R31). The bounds tests of 20_memory.md R41 and R47 are in Machine/Ops.lean. -/

namespace Sys2Proof.Machine

/-- `FONT_BASE`: open, with `FONT_BASE + 80 <= 0x200`; the spec's default (R5, R31, D8; log 6). -/
def fontBase : Nat := 0x000

/-- `FONT_DATA`, the glyphs of the digits 0 to F, five bytes each: the spec's default, from general knowledge (R31, D9,
GK2; log 7). -/
def fontGlyphs : List (List (BitVec 8)) :=
  [[0xF0, 0x90, 0x90, 0x90, 0xF0],
   [0x20, 0x60, 0x20, 0x20, 0x70],
   [0xF0, 0x10, 0xF0, 0x80, 0xF0],
   [0xF0, 0x10, 0xF0, 0x10, 0xF0],
   [0x90, 0x90, 0xF0, 0x10, 0x10],
   [0xF0, 0x80, 0xF0, 0x10, 0xF0],
   [0xF0, 0x80, 0xF0, 0x90, 0xF0],
   [0xF0, 0x10, 0x20, 0x40, 0x40]] ++
  [[0xF0, 0x90, 0xF0, 0x90, 0xF0],
   [0xF0, 0x90, 0xF0, 0x10, 0xF0],
   [0xF0, 0x90, 0xF0, 0x90, 0x90],
   [0xE0, 0x90, 0xE0, 0x90, 0xE0],
   [0xF0, 0x80, 0x80, 0x80, 0xF0],
   [0xE0, 0x90, 0x90, 0x90, 0xE0],
   [0xF0, 0x80, 0xF0, 0x80, 0xF0],
   [0xF0, 0x80, 0xF0, 0x80, 0x80]]

/-- Byte `j` of `FONT_DATA`: byte `j mod 5` of glyph `j / 5` (R31). -/
def fontByte (j : Nat) : BitVec 8 := (fontGlyphs.getD (j / 5) []).getD (j % 5) 0

/-- WHAT AN UNLISTED ADDRESS READS AS: its reset contents with an empty image, the font at `FONT_BASE` and 0 everywhere else
(R28, R30, 20_memory.md R42). -/
def Memory.resetByte (a : Nat) : BitVec 8 :=
  if fontBase ≤ a ∧ a < fontBase + 80 then fontByte (a - fontBase) else 0

/-- The byte at an address. -/
def Memory.get : Memory → Nat → BitVec 8
  | [], a => Memory.resetByte a
  | c :: m, a => if c.1 = a then c.2 else Memory.get m a

/-- The entry for an address, none where the value is what the address reads as unlisted. -/
def Memory.entry (a : Nat) (v : BitVec 8) : Memory := if v = Memory.resetByte a then [] else [(a, v)]

/-- Write one byte, keeping the canonical form. -/
def Memory.set : Memory → Nat → BitVec 8 → Memory
  | [], a, v => Memory.entry a v
  | c :: m, a, v =>
    if a < c.1 then Memory.entry a v ++ (c :: m)
    else if c.1 = a then Memory.entry a v ++ m
    else c :: Memory.set m a v

/-- Write consecutive bytes from an address upwards, in ascending address order (20_memory.md R46). -/
def Memory.setAll : Memory → Nat → List (BitVec 8) → Memory
  | m, _, [] => m
  | m, a, v :: vs => Memory.setAll (m.set a v) (a + 1) vs

/-- The canonical form: addresses strictly rising and inside memory, no entry equal to what the address reads as unlisted. -/
def Memory.wf (m : Memory) : Bool :=
  decide (m.Pairwise (fun c d => c.1 < d.1)) &&
    m.all (fun c => decide (c.1 < Config.memSize) && decide (c.2 ≠ Memory.resetByte c.1))

end Sys2Proof.Machine
end

