-- ==== Sys2Proof/Machine/Ops.lean ====
section
/-! DEFINITION. The named operations over the state: registers, memory with its bounds tests, the call stack, pixels, the
program-counter outcome and check, and taking a fatal condition. -/

namespace Sys2Proof.Machine

/-! ### Registers (10_state.md R12) -/

/-- `x[r]`. -/
def State.reg (s : State) (r : Reg) : Byte := s.x[r]

/-- `x[r] <- v`. No register is hardwired. -/
def State.setReg (s : State) (r : Reg) (v : Byte) : State := { s with x := s.x.set r v }

/-- `x[r], x[r + 1], … <- vs`, in ascending order (42_index_memory.md R125). -/
def State.setRegs : State → Nat → List Byte → State
  | s, _, [] => s
  | s, r, v :: vs => State.setRegs (s.setReg (Fin.ofNat 16 r) v) (r + 1) vs

/-- `x[0], …, x[n - 1]`. -/
def State.regs (s : State) (n : Nat) : List Byte := (List.range n).map (fun r => s.reg (Fin.ofNat 16 r))

/-! ### Memory (20_memory.md R41, R46, R47) -/

/-- The byte at an address inside memory. -/
def State.byteAt (s : State) (a : Nat) : Byte := s.mem.get a

/-- `MemRead(addr, 1)`: raises `Fatal.MemoryBounds(addr)` above 0xFFF (R41). -/
def State.memRead (s : State) (a : Nat) : Except Fatal Byte :=
  if a < Config.memSize then .ok (s.byteAt a) else .error (.memoryBounds a)

/-- `MemWrite(addr, 1, v)`: raises `Fatal.MemoryBounds(addr)` above 0xFFF (R41). -/
def State.memWrite (s : State) (a : Nat) (v : Byte) : Except Fatal State :=
  if a < Config.memSize then .ok { s with mem := s.mem.set a v } else .error (.memoryBounds a)

/-- The range test of R47: an access to `n` bytes from `base` leaves memory. The sum is taken in the naturals; no byte, no
test (D20). -/
def rangeOutside (base n : Nat) : Bool := decide (1 ≤ n) && decide (Config.memSize < base + n)

/-- The `n` bytes from `base`, in ascending order. -/
def State.bytesAt (s : State) (base n : Nat) : List Byte := (List.range n).map (fun k => s.byteAt (base + k))

/-- Read `n` bytes from `base` after testing the whole range (R47, D4; log 18). -/
def State.loadBytes (s : State) (base n : Nat) : Except Fatal (List Byte) :=
  if rangeOutside base n then .error (.memoryBounds base) else .ok (s.bytesAt base n)

/-- Write bytes from `base` upwards after testing the whole range: all or nothing (R47, D4; log 18). -/
def State.storeBytes (s : State) (base : Nat) (vs : List Byte) : Except Fatal State :=
  if rangeOutside base vs.length then .error (.memoryBounds base) else .ok { s with mem := s.mem.setAll base vs }

/-- The fetch of a step: both bytes are read before anything is executed, the first is the high byte (R43, 40_control_flow.md
R80). -/
def State.fetch (s : State) : Except Fatal Word :=
  match s.memRead s.pc.toNat with
  | .error k => .error k
  | .ok hi =>
    match s.memRead (s.pc.toNat + 1) with
    | .error k => .error k
    | .ok lo => .ok (wordOfBytes hi lo)

/-! ### The call stack (10_state.md R17) -/

/-- Push: write the current `pc`, then increment `sp`; raises with `sp = 16` (40_control_flow.md R84). -/
def State.push (s : State) : Except Fatal State :=
  if h : s.sp.val < 16 then
    .ok { s with stack := s.stack.set s.sp.val s.pc h, sp := ⟨s.sp.val + 1, Nat.succ_lt_succ h⟩ }
  else .error (.stackOverflow s.pc)

/-- Pop: decrement `sp`, then read; the entry stays as dead data; raises with `sp = 0` (40_control_flow.md R85). -/
def State.pop (s : State) : Except Fatal (State × Word) :=
  match s.sp with
  | ⟨0, _⟩ => .error (.stackUnderflow s.pc)
  | ⟨n + 1, h⟩ => .ok ({ s with sp := ⟨n, Nat.lt_of_succ_lt h⟩ }, s.stack[n]'(Nat.lt_of_succ_lt_succ h))

/-! ### Pixels (10_state.md R20, 43_display.md R130) -/

/-- `fb[col][row]`. -/
def Framebuffer.pixel (fb : Framebuffer) (col : Fin 64) (row : Fin 32) : Bool := (fb[row]).getLsbD col.val

/-- `fb[col][row] <- fb[col][row] ^ b`. -/
def Framebuffer.xorPixel (fb : Framebuffer) (col : Fin 64) (row : Fin 32) (b : Bool) : Framebuffer :=
  if b then fb.set row (fb[row] ^^^ BitVec.twoPow 64 col.val) else fb

/-- All 2048 pixels 0 (43_display.md R131). -/
def Framebuffer.clear : Framebuffer := Vector.replicate 32 0

/-- `fb[col][row]` of the machine. -/
def State.pixel (s : State) (col : Fin 64) (row : Fin 32) : Bool := s.fb.pixel col row

/-! ### Taking a fatal condition, and the program-counter outcome (60_exceptions.md R151, 40_control_flow.md R81, R82) -/

/-- `raise Fatal.<Kind>(info)`: set `exit_requested`, report on `diag_out`, end the step. Nothing is saved, control goes
nowhere, and there is no return: halting is absorbing (R151, R152). The state passed in is the one that stays: the state before
the instruction when `Execute` raises, the completed state when `CheckPc` raises. -/
def State.raiseFatal (s : State) (k : Fatal) : State :=
  { s with exitRequested := true, diagOut := .fatal k :: s.diagOut }

/-- `ApplyOutcome` (R81): exactly one arm. -/
def State.applyOutcome (s : State) : PcOutcome → State
  | .advance2 => { s with pc := s.pc + 2 }
  | .advance4 => { s with pc := s.pc + 4 }
  | .hold => s
  | .setPc a => { s with pc := a }

/-- `CheckPc` (R82): the range test comes first; the alignment test is the spec's decision D1 (log 21). -/
def State.checkPc (s : State) : State :=
  if s.pc.toNat < Config.pcMin ∨ Config.pcMax < s.pc.toNat then s.raiseFatal (.pcOutOfRange s.pc)
  else if s.pc.getLsbD 0 then s.raiseFatal (.pcMisaligned s.pc)
  else s

/-- The end of an instruction's meaning when `Execute` returned the outcome `o`. -/
def complete (s : State) (o : PcOutcome) : Host.Outcome State Fault Refusal := .next (s.applyOutcome o)

/-- The end of an instruction's meaning when `Execute` raised: `ApplyOutcome` is not reached (R80, R151). -/
def fatal (s : State) (k : Fatal) : Host.Outcome State Fault Refusal := .next (s.raiseFatal k)

end Sys2Proof.Machine
end

