-- ==== Sys2Proof/Machine/Flags.lean ====
section
/-! DEFINITION. Results and flags of the arithmetic (41_alu.md R100, R102, R107 to R111, R113): exact naturals, narrowed at
the end. The flag is `x[15]`, always 0 or 1 (10_state.md R13). -/

namespace Sys2Proof.Machine

/-- A truth value as the flag value 0 or 1 (R13). -/
def flagValue (b : Bool) : Byte := if b then 1 else 0

/-- A flag and a result, in the order they are written. -/
abbrev Flagged := Bool × Byte

/-- ADD Vx,Vy: carry when the sum exceeds 255 (R107). -/
def addFlagged (a b : Byte) : Flagged := (decide (a.toNat + b.toNat > 255), BitVec.ofNat 8 (a.toNat + b.toNat))

/-- SUB: no borrow when `a >= b` (R108). -/
def subFlagged (a b : Byte) : Flagged := (decide (a.toNat ≥ b.toNat), BitVec.ofNat 8 (a.toNat + 256 - b.toNat))

/-- SHR: the bit shifted out is bit 0 (R109). -/
def shrFlagged (a : Byte) : Flagged := (a.getLsbD 0, a >>> 1)

/-- SUBN: SUB with the operands exchanged, no borrow when `b >= a` (R110). -/
def subnFlagged (a b : Byte) : Flagged := (decide (b.toNat ≥ a.toNat), BitVec.ofNat 8 (b.toNat + 256 - a.toNat))

/-- SHL: the bit shifted out is bit 7 (R111). -/
def shlFlagged (a : Byte) : Flagged := (a.getLsbD 7, a <<< 1)

/-- ADD Vx,kk: the sum modulo 256, no flag (R102). -/
def addWrapped (a b : Byte) : Byte := BitVec.ofNat 8 (a.toNat + b.toNat)

/-- The write order of R100: `x[15]` first, `x[X]` second, so the result stays when `X = 15` (D11; log 17). -/
def State.writeFlagged (s : State) (x : Reg) (fr : Flagged) : State := (s.setReg 15 (flagValue fr.1)).setReg x fr.2

end Sys2Proof.Machine
end

