-- ==== Sys2Proof/Machine/Alu.lean ====
section
/-! DEFINITION. Register, arithmetic, logic, shift and random instructions (41_alu.md R100 to R113). -/

namespace Sys2Proof.Machine

/-- MVI Vx,kk (R101). -/
def execMvi (x : Reg) (kk : Byte) (s : State) : Host.Outcome State Fault Refusal := complete (s.setReg x kk) .advance2

/-- ADD Vx,kk (R102): no flag. -/
def execAddImm (x : Reg) (kk : Byte) (s : State) : Host.Outcome State Fault Refusal :=
  complete (s.setReg x (addWrapped (s.reg x) kk)) .advance2

/-- MOV Vx,Vy (R103). -/
def execMov (x y : Reg) (s : State) : Host.Outcome State Fault Refusal := complete (s.setReg x (s.reg y)) .advance2

/-- OR Vx,Vy (R104): `x[15]` is untouched unless it is the destination. -/
def execOr (x y : Reg) (s : State) : Host.Outcome State Fault Refusal :=
  complete (s.setReg x (s.reg x ||| s.reg y)) .advance2

/-- AND Vx,Vy (R105). -/
def execAnd (x y : Reg) (s : State) : Host.Outcome State Fault Refusal :=
  complete (s.setReg x (s.reg x &&& s.reg y)) .advance2

/-- XOR Vx,Vy (R106). -/
def execXor (x y : Reg) (s : State) : Host.Outcome State Fault Refusal :=
  complete (s.setReg x (s.reg x ^^^ s.reg y)) .advance2

/-- ADD Vx,Vy (R107). -/
def execAdd (x y : Reg) (s : State) : Host.Outcome State Fault Refusal :=
  complete (s.writeFlagged x (addFlagged (s.reg x) (s.reg y))) .advance2

/-- SUB Vx,Vy (R108). -/
def execSub (x y : Reg) (s : State) : Host.Outcome State Fault Refusal :=
  complete (s.writeFlagged x (subFlagged (s.reg x) (s.reg y))) .advance2

/-- SHR Vx (R109): the `Y` field is neither read nor written. -/
def execShr (x _y : Reg) (s : State) : Host.Outcome State Fault Refusal :=
  complete (s.writeFlagged x (shrFlagged (s.reg x))) .advance2

/-- SUBN Vx,Vy (R110). -/
def execSubn (x y : Reg) (s : State) : Host.Outcome State Fault Refusal :=
  complete (s.writeFlagged x (subnFlagged (s.reg x) (s.reg y))) .advance2

/-- SHL Vx (R111): the `Y` field is neither read nor written. -/
def execShl (x _y : Reg) (s : State) : Host.Outcome State Fault Refusal :=
  complete (s.writeFlagged x (shlFlagged (s.reg x))) .advance2

/-- The byte the next RAND draws: a free value (R24, R112). That two states with the same count of draws, also of two runs, draw the
same byte is the model's DESIGN CHOICE: the spec says not to assume that two runs agree (91_not_in_source.md N8; log 9). -/
def nextDraw (s : State) : Byte := Config.randomByte s.draws

/-- RAND Vx,kk (R112): the draw masked by `kk`; one draw is used up. -/
def execRand (x : Reg) (kk : Byte) (s : State) : Host.Outcome State Fault Refusal :=
  complete ({ s with draws := s.draws + 1 }.setReg x (nextDraw s &&& kk)) .advance2

end Sys2Proof.Machine
end

