-- ==== Sys2Proof/Machine/Operands.lean ====
section
/-! DEFINITION. The operand forms (30_encoding.md R62, 42_index_memory.md R126): registers are read with State.reg, `kk` and
the row count as they stand, the others here. -/

namespace Sys2Proof.Machine

/-- `zext_16(nnn)` (R62). -/
def zextAddr (nnn : Addr12) : Word := nnn.setWidth 16

/-- `zext_16(v)` of a register value (R6). -/
def zextByte (v : Byte) : Word := v.setWidth 16

/-- The target of JMP.V: `zext_16(nnn) + zext_16(x[0])`, at most 0x10FE (40_control_flow.md R86). -/
def offsetTarget (s : State) (nnn : Addr12) : Word := zextAddr nnn + zextByte (s.reg 0)

/-- `RET_RESUME_OFFSET`: the decided value (R85, D2, 90_conflicts.md C3; log 13). -/
def retResumeOffset : Word := 2

/-- The first byte of glyph `v`: `FONT_BASE + 5 * v`, the whole 8-bit value, no mask (42_index_memory.md R122, D12). -/
def glyphAddr (v : Byte) : Word := BitVec.ofNat 16 (fontBase + 5 * v.toNat)

/-- The decimal digits of a byte, hundreds first (42_index_memory.md R123). -/
def bcdDigits (v : Byte) : List Byte :=
  [BitVec.ofNat 8 (v.toNat / 100), BitVec.ofNat 8 (v.toNat / 10 % 10), BitVec.ofNat 8 (v.toNat % 10)]

/-- The base address of a memory instruction: `I`, unmasked, as a natural number (R126, 20_memory.md R53). -/
def indexBase (s : State) : Nat := s.I.toNat

/-- `key[k]` for a key index taken from a register; none above 15 (44_timer_keypad.md R140). -/
def keyLevel (s : State) (k : Byte) : Option Bool := s.key[k.toNat]?

/-- A key-down edge: down at the latest poll, up at the one before (44_timer_keypad.md R143). -/
def keyEdge (s : State) (k : Fin 16) : Bool := s.key[k] && !s.keyprev[k]

/-- The smallest key index with an edge (R143, D6; log 20). -/
def firstKeyEdge (s : State) : Option (Fin 16) := (List.finRange 16).find? (keyEdge s)

end Sys2Proof.Machine
end

