-- ==== Sys2Proof/Machine/ControlFlow.lean ====
section
/-! DEFINITION. Control transfer and the unrecognised no-op (40_control_flow.md R83 to R92). -/

namespace Sys2Proof.Machine

/-- The outcome of a conditional skip (R87 to R90, R140, R141). -/
def skipIf (c : Bool) : PcOutcome := if c then .advance4 else .advance2

/-- JMP nnn (R83). -/
def execJmp (nnn : Addr12) (s : State) : Host.Outcome State Fault Refusal := complete s (.setPc (zextAddr nnn))

/-- CALL nnn (R84): the saved value is the address of the CALL itself. -/
def execCall (nnn : Addr12) (s : State) : Host.Outcome State Fault Refusal :=
  match s.push with
  | .error k => fatal s k
  | .ok t => complete t (.setPc (zextAddr nnn))

/-- RET (R85): its own target is the popped value plus `RET_RESUME_OFFSET`. -/
def execRet (s : State) : Host.Outcome State Fault Refusal :=
  match s.pop with
  | .error k => fatal s k
  | .ok (t, a) => complete t (.setPc (a + retResumeOffset))

/-- JMP.V nnn (R86). -/
def execJmpV (nnn : Addr12) (s : State) : Host.Outcome State Fault Refusal := complete s (.setPc (offsetTarget s nnn))

/-- SKIP.CMP Vx,kk (R87). -/
def execSkipCmp (x : Reg) (kk : Byte) (s : State) : Host.Outcome State Fault Refusal :=
  complete s (skipIf (s.reg x == kk))

/-- SKIP.NCMP Vx,kk (R88). -/
def execSkipNcmp (x : Reg) (kk : Byte) (s : State) : Host.Outcome State Fault Refusal :=
  complete s (skipIf (s.reg x != kk))

/-- SKIP.RCMP Vx,Vy (R89). -/
def execSkipRcmp (x y : Reg) (s : State) : Host.Outcome State Fault Refusal :=
  complete s (skipIf (s.reg x == s.reg y))

/-- SNE Vx,Vy (R90). -/
def execSne (x y : Reg) (s : State) : Host.Outcome State Fault Refusal :=
  complete s (skipIf (s.reg x != s.reg y))

/-- `unrecognized` (R91, R155): a report on `diag_out`, then `Advance(2)`. -/
def execUnrecognized (op : Word) (s : State) : Host.Outcome State Fault Refusal :=
  complete { s with diagOut := .unrecognized s.pc op :: s.diagOut } .advance2

end Sys2Proof.Machine
end

