-- ==== Sys2Proof/Machine/Display.lean ====
section
/-! DEFINITION. Display instructions and the sprite compositor (43_display.md R130 to R133). -/

namespace Sys2Proof.Machine

/-- A picture and the collision seen so far. -/
abbrev Drawing := Framebuffer × Bool

/-- `b[7 - col]`: bit 7 of a sprite byte is column offset 0 (R130, D10; log 16). -/
def spriteBit (b : Byte) (col : Nat) : Bool := b.getLsbD (7 - col)

/-- The body of R132's inner loop: the pixel at `((vx + col) mod 64, (vy + row) mod 32)`. The collision is that of the pseudocode,
against what is lit at this DRW, also where R132's corner case on a repeated draw says otherwise (DEDUCED; log 33). -/
def drawPixel (vx vy row : Nat) (b : Byte) (d : Drawing) (col : Nat) : Drawing :=
  let bit := spriteBit b col
  let cx := Fin.ofNat 64 (vx + col)
  let cy := Fin.ofNat 32 (vy + row)
  (d.1.xorPixel cx cy bit, d.2 || (bit && d.1.pixel cx cy))

/-- One sprite byte: the 8 columns of one row (R132). -/
def drawRow (vx vy row : Nat) (b : Byte) (d : Drawing) : Drawing := (List.range 8).foldl (drawPixel vx vy row b) d

/-- The sprite's rows from number `row` on (R132). -/
def drawRows (vx vy : Nat) : Nat → List Byte → Drawing → Drawing
  | _, [], d => d
  | row, b :: bs, d => drawRows vx vy (row + 1) bs (drawRow vx vy row b d)

/-- The compositor: a sprite drawn at `(vx, vy)` on a picture (R132). -/
def drawSprite (vx vy : Byte) (sprite : List Byte) (fb : Framebuffer) : Drawing :=
  drawRows vx.toNat vy.toNat 0 sprite (fb, false)

/-- CLS (R131): `draw_requested` is not changed (D25; log 22). -/
def execCls (s : State) : Host.Outcome State Fault Refusal := complete { s with fb := Framebuffer.clear } .advance2

/-- DRW Vx,Vy,n (R132): `vx` and `vy` are sampled before `x[15]` is written; with `n = 0` there is no bounds test (D20). -/
def execDrw (x y : Reg) (n : Fin 16) (s : State) : Host.Outcome State Fault Refusal :=
  match s.loadBytes (indexBase s) n.val with
  | .error k => fatal s k
  | .ok sprite =>
    let d := drawSprite (s.reg x) (s.reg y) sprite s.fb
    complete ({ s with fb := d.1, drawRequested := true }.setReg 15 (flagValue d.2)) .advance2

end Sys2Proof.Machine
end

