-- ==== Sys2Proof/Machine/IndexMemory.lean ====
section
/-! DEFINITION. Index register and memory instructions (42_index_memory.md R120 to R126). The block transfers leave `I`
unchanged (D12; log 23). -/

namespace Sys2Proof.Machine

/-- LDI nnn (R120). -/
def execLdi (nnn : Addr12) (s : State) : Host.Outcome State Fault Refusal :=
  complete { s with I := zextAddr nnn } .advance2

/-- ADDI.X Vx (R121): wraps modulo 65536, no flag (D12, D21). -/
def execAddiX (x : Reg) (s : State) : Host.Outcome State Fault Refusal :=
  complete { s with I := s.I + zextByte (s.reg x) } .advance2

/-- LDI.FX Vx (R122). -/
def execLdiFx (x : Reg) (s : State) : Host.Outcome State Fault Refusal :=
  complete { s with I := glyphAddr (s.reg x) } .advance2

/-- LDB.X Vx (R123). -/
def execLdbX (x : Reg) (s : State) : Host.Outcome State Fault Refusal :=
  match s.storeBytes (indexBase s) (bcdDigits (s.reg x)) with
  | .error k => fatal s k
  | .ok t => complete t .advance2

/-- LDI.ALL Vx (R124): `X` is a register number (90_conflicts.md C4). -/
def execLdiAll (x : Reg) (s : State) : Host.Outcome State Fault Refusal :=
  match s.storeBytes (indexBase s) (s.regs (x.val + 1)) with
  | .error k => fatal s k
  | .ok t => complete t .advance2

/-- LDX.ALL Vx (R125): `X` is a register number. -/
def execLdxAll (x : Reg) (s : State) : Host.Outcome State Fault Refusal :=
  match s.loadBytes (indexBase s) (x.val + 1) with
  | .error k => fatal s k
  | .ok vs => complete (s.setRegs 0 vs) .advance2

end Sys2Proof.Machine
end

