-- ==== Sys2Proof/Machine/TimerKeypad.lean ====
section
/-! DEFINITION. Timer and keypad instructions (44_timer_keypad.md R140 to R145). -/

namespace Sys2Proof.Machine

/-- SKIP.KEYX Vx (R140): the level of the key whose index is the register's value; above 15 it is fatal (D5; log 19). -/
def execSkipKeyx (x : Reg) (s : State) : Host.Outcome State Fault Refusal :=
  match keyLevel s (s.reg x) with
  | none => fatal s (.keyIndexOutOfRange (s.reg x))
  | some down => complete s (skipIf down)

/-- SKIPN.KEYX Vx (R141). -/
def execSkipnKeyx (x : Reg) (s : State) : Host.Outcome State Fault Refusal :=
  match keyLevel s (s.reg x) with
  | none => fatal s (.keyIndexOutOfRange (s.reg x))
  | some down => complete s (skipIf (!down))

/-- LDX.DT Vx (R142). -/
def execLdxDt (x : Reg) (s : State) : Host.Outcome State Fault Refusal := complete (s.setReg x s.dt) .advance2

/-- LDX.KEY Vx (R143): the lowest key with a down edge, or `Hold` with nothing changed. -/
def execLdxKey (x : Reg) (s : State) : Host.Outcome State Fault Refusal :=
  match firstKeyEdge s with
  | none => complete s .hold
  | some k => complete (s.setReg x (BitVec.ofNat 8 k.val)) .advance2

/-- LDDT.X Vx (R144). -/
def execLddtX (x : Reg) (s : State) : Host.Outcome State Fault Refusal := complete { s with dt := s.reg x } .advance2

/-- LDST.X Vx (R145). -/
def execLdstX (x : Reg) (s : State) : Host.Outcome State Fault Refusal := complete { s with st := s.reg x } .advance2

end Sys2Proof.Machine
end

