-- ==== Sys2Proof/Machine/Dispatch.lean ====
section
/-! DEFINITION. One arm per instruction: `Execute` and `ApplyOutcome` of 40_control_flow.md R80. -/

namespace Sys2Proof.Machine

def exec (i : Instr) (s : State) : Host.Outcome State Fault Refusal :=
  match i with
  | .cls => Sys2Proof.Machine.execCls s
  | .ret => Sys2Proof.Machine.execRet s
  | .jmp nnn => Sys2Proof.Machine.execJmp nnn s
  | .call nnn => Sys2Proof.Machine.execCall nnn s
  | .skipCmp x kk => Sys2Proof.Machine.execSkipCmp x kk s
  | .skipNcmp x kk => Sys2Proof.Machine.execSkipNcmp x kk s
  | .skipRcmp x y => Sys2Proof.Machine.execSkipRcmp x y s
  | .sne x y => Sys2Proof.Machine.execSne x y s
  | .mvi x kk => Sys2Proof.Machine.execMvi x kk s
  | .addImm x kk => Sys2Proof.Machine.execAddImm x kk s
  | .mov x y => Sys2Proof.Machine.execMov x y s
  | .or x y => Sys2Proof.Machine.execOr x y s
  | .and x y => Sys2Proof.Machine.execAnd x y s
  | .xor x y => Sys2Proof.Machine.execXor x y s
  | .add x y => Sys2Proof.Machine.execAdd x y s
  | .sub x y => Sys2Proof.Machine.execSub x y s
  | .shr x y => Sys2Proof.Machine.execShr x y s
  | .subn x y => Sys2Proof.Machine.execSubn x y s
  | .shl x y => Sys2Proof.Machine.execShl x y s
  | .ldi nnn => Sys2Proof.Machine.execLdi nnn s
  | .jmpV nnn => Sys2Proof.Machine.execJmpV nnn s
  | .rand x kk => Sys2Proof.Machine.execRand x kk s
  | .drw x y n => Sys2Proof.Machine.execDrw x y n s
  | .skipKeyx x => Sys2Proof.Machine.execSkipKeyx x s
  | .skipnKeyx x => Sys2Proof.Machine.execSkipnKeyx x s
  | .ldxDt x => Sys2Proof.Machine.execLdxDt x s
  | .ldxKey x => Sys2Proof.Machine.execLdxKey x s
  | .lddtX x => Sys2Proof.Machine.execLddtX x s
  | .ldstX x => Sys2Proof.Machine.execLdstX x s
  | .addiX x => Sys2Proof.Machine.execAddiX x s
  | .ldiFx x => Sys2Proof.Machine.execLdiFx x s
  | .ldbX x => Sys2Proof.Machine.execLdbX x s
  | .ldiAll x => Sys2Proof.Machine.execLdiAll x s
  | .ldxAll x => Sys2Proof.Machine.execLdxAll x s
  | .unrecognized op => Sys2Proof.Machine.execUnrecognized op s

end Sys2Proof.Machine
end

