-- ==== Sys2Proof/Machine/Frame.lean ====
section
/-! DEFINITION. The frame sequencer, the host's ports and the program load (60_exceptions.md R159 to R171, 10_state.md R27,
70_reset_and_hazards.md R180, R181). -/

namespace Sys2Proof.Machine

/-- `STEPS_PER_FRAME = FREQUENCY / REFRESH_RATE`, rounded down (00_scope.md R5, R160). -/
def State.stepsPerFrame (s : State) : Nat := s.frequency / s.refreshRate

/-- Port `tone_enable` (R27, R165): the level the last tick left, or the last step where no tick came after it. -/
def State.toneEnable (s : State) : Bool := decide (0 < s.st.toNat)

/-- Port `tone_enable` between the last step of the latest completed batch and the tick after it: the other level "some completed
step or tick left" that the audio collaborator may have sampled in that model step (20_memory.md R50; logs 12 and 32). -/
def State.toneBeforeTick (s : State) : Bool := decide (0 < s.stBeforeTick.toNat)

/-- Port `draw_out` (R27). -/
def State.drawOut (s : State) : Bool := s.drawRequested

/-- Port `exit_out` (R27). -/
def State.exitOut (s : State) : Bool := s.exitRequested

/-- `LatchCopy` (R162). -/
def State.latchCopy (s : State) : State := { s with keyprev := s.key }

/-- `RenderHandOver` (R164): only if `draw_requested`, the host reads `fb_out` and the flag is cleared. -/
def State.renderHandOver (s : State) : State :=
  if s.drawRequested then { s with fbOut := some s.fb, drawRequested := false } else s

/-- Record the `st` that the batch's last step left, before the tick changes it (20_memory.md R50; log 32). -/
def State.recordTone (s : State) : State := { s with stBeforeTick := s.st }

/-- One timer's tick: minus 1, floor 0 (R161). -/
def tickTimer (t : BitVec 8) : BitVec 8 := if 0 < t.toNat then t - 1 else t

/-- `TickTimers` (R161): the two timers are independent. -/
def State.tickTimers (s : State) : State := { s with dt := tickTimer s.dt, st := tickTimer s.st }

/-- What the host presents at the coming poll: the oldest sample of hostIn, or free values (R163, R166). That two states with hostIn
empty and the same count of polls get the same levels is the model's DESIGN CHOICE (log 10). -/
def State.nextSample (s : State) : HostSample :=
  match s.hostIn with
  | v :: _ => v
  | [] => ⟨Config.keyLevels s.polls, Config.quitLevel s.polls⟩

/-- The sample of a poll is used up. -/
def State.dropSample (s : State) : State :=
  match s.hostIn with
  | _ :: vs => { s with hostIn := vs }
  | [] => { s with polls := s.polls + 1 }

/-- `PollInput` (R163, R166): `key <- key_in`, and a quit level sets `exit_requested`, which nothing clears. -/
def State.pollInput (s : State) : State :=
  { s.dropSample with
    key := s.nextSample.keys
    exitRequested := s.exitRequested || s.nextSample.quit }

/-- `FrameBoundary` (R160): latch copy, render hand-over, tick, poll; the MODEL's record of the tone comes before the tick. The
sleep changes no state. -/
def State.frameBoundary (s : State) : State := s.latchCopy.renderHandOver.recordTone.tickTimers.pollInput

/-- The sequencer after a step (R160): one more step of the batch, and the frame boundary when the batch is complete; nothing
once `exit_requested` is set (R152). Logs 5 and 12. -/
def State.sequence (s : State) : State :=
  if s.exitRequested then s
  else if s.frameStep + 1 < s.stepsPerFrame then { s with frameStep := s.frameStep + 1 }
  else { s with frameStep := 0 }.frameBoundary

/-- What follows the instruction's meaning in a step: `CheckPc`, unless `Execute` raised (40_control_flow.md R80), then the
sequencer. -/
def State.endStep (s : State) : State := if s.exitRequested then s else s.checkPc.sequence

/-- `Reset(rom_in)` with the open parameters `FREQUENCY` and `REFRESH_RATE` (R180): the image verbatim at 0x200, and every other
field as at reset; none for an image of more than 3584 bytes, with which the machine is never started (R154, R181). -/
def State.boot (frequency refreshRate : Nat) (rom : List (BitVec 8)) : Option State :=
  if Config.progBase + rom.length ≤ Config.memSize then
    some { State.reset with mem := State.reset.mem.setAll Config.progBase rom
                            frequency := frequency
                            refreshRate := refreshRate }
  else none

end Sys2Proof.Machine
end

