-- ==== Sys2Proof/Machine/Step.lean ====
section
/-! DEFINITION. One step of the machine: one `Step()` of the engine (40_control_flow.md R80) and what the frame sequencer does
after it (60_exceptions.md R160). -/

namespace Sys2Proof.Machine

/-- One step. A halted machine stays as it is (R152, log 2). With `STEPS_PER_FRAME = 0` no instruction runs and every step is
a frame boundary (70_reset_and_hazards.md R184). -/
def step (s : State) : Host.Outcome State Fault Refusal :=
  if s.exitRequested then .next s
  else if s.stepsPerFrame = 0 then .next s.frameBoundary
  else
    match s.fetch with
    | .error _ => .fault (.fetchOutsideMemory s.pc)
    | .ok op =>
      match exec (decodeWord op) s with
      | .next t => .next t.endStep
      | .fault f => .fault f
      | .refused r => .refused r

/-- `s` with an instruction of opcode_table.json's numbering stored where the next step fetches: high byte at `pc`, low byte
at `pc + 1` (20_memory.md R43). It stands for the program load of R181. -/
def State.withFetchWord (s : State) (nbits w : Nat) : State :=
  { s with mem := s.mem.setAll s.pc.toNat [highByte (tableWord nbits w), lowByte (tableWord nbits w)] }

end Sys2Proof.Machine
end

