-- ==== Sys2Proof/Safety.lean ====
section
/-! DEFINITION. The terms claims are stated in: the invariant of the machine, what a safe run is, and frames (which parts of the
state an instruction may change). -/

namespace Sys2Proof.Machine

/-- A value `pc` has between steps: even, in [0x200, 0xFFE] (10_state.md R15). -/
def LegalPc (a : Word) : Prop := 0x200 ≤ a.toNat ∧ a.toNat ≤ 0xFFE ∧ a.toNat % 2 = 0

/-- What holds between steps (R15, R17, R25, 40_control_flow.md R85). -/
structure Inv (s : State) : Prop where
  /-- Memory is in canonical form: every listed cell lies inside the 4096 bytes. -/
  memory : Memory.wf s.mem = true
  /-- R15; after CheckPc has raised, `pc` holds the offending value. -/
  pc : s.exitRequested = false → LegalPc s.pc
  /-- "every saved address passed CheckPc's invariant when its CALL was fetched" (R85). -/
  saved : ∀ k : Fin 16, k.val < s.sp.val → LegalPc s.stack[k]
  /-- R25; with `STEPS_PER_FRAME = 0` there is no batch. -/
  frame : s.stepsPerFrame = 0 ∨ s.frameStep < s.stepsPerFrame

/-- The report of a fatal condition. -/
def Diag.isFatal : Diag → Bool
  | .fatal _ => true
  | .unrecognized _ _ => false

/-- A safe run so far: no fatal condition was reported. A quit of the host is safe. -/
def State.Safe (s : State) : Prop := s.diagOut.any Diag.isFatal = false

/-- The fields of State, as names for frames. -/
inductive Part where
  | mem | x | pc | I | stack | sp | dt | st | fb | key | keyprev | drawRequested | exitRequested | frameStep
  | draws | hostIn | polls | fbOut | stBeforeTick | diagOut | frequency | refreshRate
  deriving DecidableEq, Repr

/-- Two states agree on a part: memory through every byte, registers through every register, the picture through every
pixel. -/
def Part.Same (s t : State) : Part → Prop
  | .mem => ∀ a : Nat, t.byteAt a = s.byteAt a
  | .x => ∀ r : Reg, t.reg r = s.reg r
  | .pc => t.pc = s.pc
  | .I => t.I = s.I
  | .stack => ∀ k : Fin 16, t.stack[k] = s.stack[k]
  | .sp => t.sp = s.sp
  | .dt => t.dt = s.dt
  | .st => t.st = s.st
  | .fb => ∀ (col : Fin 64) (row : Fin 32), t.pixel col row = s.pixel col row
  | .key => ∀ k : Fin 16, t.key[k] = s.key[k]
  | .keyprev => ∀ k : Fin 16, t.keyprev[k] = s.keyprev[k]
  | .drawRequested => t.drawRequested = s.drawRequested
  | .exitRequested => t.exitRequested = s.exitRequested
  | .frameStep => t.frameStep = s.frameStep
  | .draws => t.draws = s.draws
  | .hostIn => t.hostIn = s.hostIn
  | .polls => t.polls = s.polls
  | .fbOut => t.fbOut = s.fbOut
  | .stBeforeTick => t.stBeforeTick = s.stBeforeTick
  | .diagOut => t.diagOut = s.diagOut
  | .frequency => t.frequency = s.frequency
  | .refreshRate => t.refreshRate = s.refreshRate

/-- Every part not listed is unchanged. -/
def Keeps (changed : List Part) (s t : State) : Prop := ∀ p : Part, p ∉ changed → p.Same s t

/-- The parts an instruction may change when it raises nothing: the column "written by" of R10, the table of R26, R13, R22; and
the MODEL's fields `draws` (RAND) and `diagOut` (the log of R155). -/
def writtenParts : Instr → List Part
  | .jmp _ | .jmpV _ | .skipCmp _ _ | .skipNcmp _ _ | .skipRcmp _ _ | .sne _ _ | .skipKeyx _ | .skipnKeyx _ => [.pc]
  | .call _ => [.pc, .stack, .sp]
  | .ret => [.pc, .sp]
  | .mvi _ _ | .addImm _ _ | .mov _ _ | .or _ _ | .and _ _ | .xor _ _ | .add _ _ | .sub _ _ | .shr _ _ | .subn _ _
  | .shl _ _ | .ldxDt _ | .ldxKey _ | .ldxAll _ => [.pc, .x]
  | .rand _ _ => [.pc, .x, .draws]
  | .ldi _ | .addiX _ | .ldiFx _ => [.pc, .I]
  | .ldbX _ | .ldiAll _ => [.pc, .mem]
  | .cls => [.pc, .fb]
  | .drw _ _ _ => [.pc, .x, .fb, .drawRequested]
  | .lddtX _ => [.pc, .dt]
  | .ldstX _ => [.pc, .st]
  | .unrecognized _ => [.pc, .diagOut]

/-- The parts a fatal condition changes (60_exceptions.md R151). -/
def fatalParts : List Part := [.exitRequested, .diagOut]

/-- The parts a frame boundary may change: R156's list, and the MODEL's records of the host's samples, of
the picture and of the tone. -/
def boundaryParts : List Part :=
  [.dt, .st, .key, .keyprev, .drawRequested, .exitRequested, .hostIn, .polls, .fbOut, .stBeforeTick]

/-- The sprite bit that maps to a pixel is 1: the `mask` of 43_display.md R133 for the `n` bytes at `I` drawn at `(vx, vy)`. -/
def SpriteLit (s : State) (vx vy n : Nat) (col : Fin 64) (row : Fin 32) : Prop :=
  ∃ k j : Nat, k < n ∧ j < 8 ∧ col.val = (vx + j) % 64 ∧ row.val = (vy + k) % 32 ∧
    (s.byteAt (s.I.toNat + k)).getLsbD (7 - j) = true

end Sys2Proof.Machine
end

