-- ==== Sys2Proof/Certificates/Slice0/Obligations.lean ====
section
/-! DEFINITION. The statements for the provers, from the numbered rules of spec/. `exec i s` is `Execute` and `ApplyOutcome` of
40_control_flow.md R80; `State.endStep` is `CheckPc` and the frame sequencer after it. -/

open Sys2Proof Sys2Proof.Machine

/-! ### Encoding (30_encoding.md) -/

/-- Words written out from R61 to R65 and 95_test_vectors.md section 3.1. All numeric values but those of MVI and ADD are the
spec's from general knowledge (log 14). -/
def Obligations.SpecWordsDecodeToTheirInstructions : Prop :=
  decodeWord 0x6A3C = .mvi 10 0x3C ∧ decodeWord 0x8AB4 = .add 10 11 ∧ decodeWord 0xD125 = .drw 1 2 5 ∧
  decodeWord 0x2ABC = .call 0xABC ∧ decodeWord 0x07E0 = .cls ∧ decodeWord 0x0FEE = .ret ∧
  decodeWord 0x912F = .sne 1 2 ∧ decodeWord 0xF30A = .ldxKey 3 ∧ decodeWord 0xE0A1 = .skipnKeyx 0 ∧
  decodeWord 0x812F = .unrecognized 0x812F

/-- R65: an instruction selects row r exactly when `op & mask_r = match_r`, so at most one row does. -/
def Obligations.DecoderSelectsTheRowOfTheOpcodeMap : Prop :=
  ∀ (op : Word), ∀ r ∈ opRows, (decodeWord op).rowNumber = r.number ↔ op &&& r.mask = r.pattern

/-- R66: the words listed there, and no others, are unrecognised. -/
def Obligations.UnrecognizedWordsAreExactlyTheListedOnes : Prop :=
  ∀ (op : Word),
    (isUnrecognizedWord op = true → decodeWord op = .unrecognized op) ∧
    (isUnrecognizedWord op = false → (decodeWord op).rowNumber ≤ 34)

/-- R69, R43: decoding the two bytes of an encoded well-formed instruction, high byte first, gives it back, with every operand
and whatever bytes follow. -/
def Obligations.DecodeOfEncodedBytesIsTheInstruction : Prop :=
  ∀ (i : Instr) (rest : List Byte), i.wellFormed = true → decode (encodeBytes i ++ rest) = .ok (i, rest)

/-- R64, R68: encoding what a word decodes to gives the word back but for the nibbles the decoder ignores: `n1` of CLS and RET,
`n3` of SKIP.RCMP and SNE. What it decodes to is well-formed. The ignored nibbles are the spec's decision D17 (log 15). -/
def Obligations.EncodeOfDecodedWordKeepsEveryReadBit : Prop :=
  ∀ (op : Word), (decodeWord op).wellFormed = true ∧
    encode (decodeWord op) =
      op &&& (match (decodeWord op).rowNumber with
        | 1 => 0xF0FF
        | 2 => 0xF0FF
        | 7 => 0xFFF0
        | 8 => 0xFFF0
        | _ => 0xFFFF)

/-! ### The step (40_control_flow.md R80 to R82, 20_memory.md R43) -/

/-- R43: the byte at `pc` is the high byte of the instruction, the byte at `pc + 1` the low byte. -/
def Obligations.FetchIsBigEndian : Prop :=
  ∀ (s : State), s.pc.toNat ≤ 0xFFE → ∃ op : Word, s.fetch = .ok op ∧
    op.toNat = 256 * (s.byteAt s.pc.toNat).toNat + (s.byteAt (s.pc.toNat + 1)).toNat

/-- A step runs the decoded instruction: on a machine that is not halted and whose batches are not empty, when the two bytes at
`pc` decode to `i`, the step is `exec i`, then CheckPc and the frame sequencer (`State.endStep`). That the sequencer is part of
the step is the model's (log 12). -/
def Obligations.StepRunsTheDecodedInstruction : Prop :=
  ∀ (s t : State) (i : Instr), s.exitRequested = false → s.stepsPerFrame ≠ 0 → s.pc.toNat ≤ 0xFFE →
    decode [s.byteAt s.pc.toNat, s.byteAt (s.pc.toNat + 1)] = .ok (i, []) →
    exec i s = .next t → step s = .next t.endStep

/-- R82, R153, R80: what follows an instruction that did not raise: a `pc` outside [0x200, 0xFFF] is fatal, the range test comes
first, an odd one in range is fatal (the spec's decision D1, log 21), a legal one goes on to the frame sequencer. After an
instruction that raised nothing follows (R152, log 1). -/
def Obligations.EndOfStepChecksThePc : Prop :=
  ∀ (t : State),
    (t.exitRequested = true → t.endStep = t) ∧
    (t.exitRequested = false →
      (t.pc.toNat < 0x200 ∨ 0xFFF < t.pc.toNat → t.endStep = t.raiseFatal (.pcOutOfRange t.pc)) ∧
      (0x200 ≤ t.pc.toNat → t.pc.toNat ≤ 0xFFF → t.pc.toNat % 2 = 1 →
        t.endStep = t.raiseFatal (.pcMisaligned t.pc)) ∧
      (LegalPc t.pc → t.endStep = t.sequence))

/-- R151: taking a fatal condition sets `exit_requested`, reports the kind on `diag_out` and changes nothing else (taken as a next
state and recorded: logs 1, 11). -/
def Obligations.RaisingSetsExitAndReportsOnly : Prop :=
  ∀ (s : State) (k : Fatal), (s.raiseFatal k).exitRequested = true ∧
    (s.raiseFatal k).diagOut = .fatal k :: s.diagOut ∧ Keeps fatalParts s (s.raiseFatal k)

/-! ### Whole-machine rules -/

/-- The invariant of the state between steps: memory canonical (log 25), `pc` even in [0x200, 0xFFE] while not halted (R15), every
saved address legal (R85), `frame_step` below `STEPS_PER_FRAME` (R25, log 5). Every step keeps it. That an odd `pc` halts is the spec's decision D1 (log 21), and
that a fatal condition and a halted step answer next states is the model's (logs 1, 2). -/
def Obligations.StepKeepsTheInvariant : Prop := ∀ (s t : State), Inv s → step s = .next t → Inv t

/-- The invariant holds at reset: memory and `pc` as R28 states them, `sp = 0` by the spec's decision D7 (log 4). -/
def Obligations.ResetMeetsTheInvariant : Prop := Inv State.reset

/-- R180: the invariant holds after a reset with any program image that fits and any `FREQUENCY` and `REFRESH_RATE` (`sp = 0` by D7,
log 4). -/
def Obligations.BootMeetsTheInvariant : Prop :=
  ∀ (f r : Nat) (rom : List Byte) (s : State), State.boot f r rom = some s → Inv s

/-- From a state that meets the invariant a step always has a next state: no fault, no refusal. It holds because the model takes
the fatal conditions of R150 and R151 as next states (DEDUCED, log 1) and answers the same state for a halted machine, R152
(DEDUCED, log 2), where R151 speaks of mapping them to faults; R15 rules out a fetch outside memory (log 3). -/
def Obligations.StepAlwaysHasANextStateUnderTheInvariant : Prop := ∀ (s : State), Inv s → ∃ t, step s = .next t

/-- R152: once `exit_requested` is set the whole state is frozen, however many steps are taken (the spec's decision D3; a
halted step answers the same state, log 2). -/
def Obligations.HaltedMachineIsFrozenForEver : Prop :=
  ∀ (s : State) (k : Nat), s.exitRequested = true → core.run k s = .next s

/-- R189: a run ends only by a fatal condition, which is then the newest report, or by the host's quit level at a poll, which
comes only when the batch is complete. That a fatal condition is a next state with a report, and that the poll is in the step that
completes the batch, is the model's (logs 1, 11, 12). -/
def Obligations.RunEndsOnlyByFatalConditionOrQuit : Prop :=
  ∀ (s t : State), step s = .next t → s.exitRequested = false → t.exitRequested = true →
    (∃ k ds, t.diagOut = .fatal k :: ds ∧ s.diagOut <:+ ds) ∨
    (s.nextSample.quit = true ∧ s.stepsPerFrame ≤ s.frameStep + 1)

/-- R10, R13, R22, R26: every instruction either changes only the parts listed for it, and does not halt, or raises a fatal
condition and changes nothing else (R151). That a raising instruction has no other effect is the spec's decision D4 (log 18); that
CLS leaves `draw_requested` is D25 (log 22), that the block transfers leave `I` and ADDI.X the flag is D12 (log 23). Which bytes
LDB.X and LDI.ALL write is said by LdbStoresThreeDecimalDigits and LdiAllStoresRegistersZeroToX. -/
def Obligations.InstructionsWriteOnlyTheirOwnParts : Prop :=
  ∀ (i : Instr) (s : State), ∃ t, exec i s = .next t ∧
    (Keeps (writtenParts i) s t ∨ ∃ k : Fatal, t = s.raiseFatal k)

/-- R21, R10: within a batch no step changes the key latch (D26, log 28), hands a picture over, takes a host sample or records the
tone. That no step at all changes `FREQUENCY` and `REFRESH_RATE` is the model's choice to hold these open parameters of R5 as
constant fields (DESIGN CHOICE, log 8); the samples, the picture and the tone are the model's records (logs 10, 11, 32), and the
boundary is in the step that completes the batch (log 12). -/
def Obligations.HostIsServicedOnlyAtFrameBoundaries : Prop :=
  ∀ (s t : State), step s = .next t →
    (s.frameStep + 1 < s.stepsPerFrame → ∀ p ∈ [Part.key, .keyprev, .hostIn, .polls, .fbOut, .stBeforeTick], p.Same s t) ∧
    ∀ p ∈ [Part.frequency, .refreshRate], p.Same s t

/-! ### Reset (10_state.md R28 to R31) -/

/-- R28, R30, R29: what reset leaves where the spec states it: every byte of memory (the font at `FONT_BASE`, 0 elsewhere) and
`pc`. The font's address and bytes are the spec's defaults (logs 6, 7). -/
def Obligations.ResetLeavesFontAndZeroMemory : Prop :=
  State.reset.pc = 0x200 ∧
  (∀ d k : Nat, d < 16 → k < 5 → State.reset.byteAt (fontBase + 5 * d + k) = (fontGlyphs.getD d []).getD k 0) ∧
  (∀ a : Nat, a < fontBase ∨ fontBase + 80 ≤ a → State.reset.byteAt a = 0)

/-- R180, R181, R154: the image stands verbatim at 0x200, every other byte and every register is as at reset; an image longer than
3584 bytes starts nothing. -/
def Obligations.BootPlacesTheImageVerbatim : Prop :=
  ∀ (f r : Nat) (rom : List Byte),
    (3584 < rom.length → State.boot f r rom = none) ∧
    (rom.length ≤ 3584 → ∃ s, State.boot f r rom = some s ∧ s.pc = 0x200 ∧
      (∀ j : Nat, j < rom.length → s.byteAt (0x200 + j) = rom.getD j 0) ∧
      (∀ a : Nat, a < 0x200 ∨ 0x200 + rom.length ≤ a → s.byteAt a = State.reset.byteAt a) ∧
      Keeps [.mem, .frequency, .refreshRate] State.reset s)

/-! ### Control flow (40_control_flow.md) -/

/-- R83 JMP: `pc := nnn`, nothing else; CheckPc then raises when `nnn < 0x200`, or when it is odd and at least 0x200 (the odd
case is the spec's decision D1, log 21). -/
def Obligations.JmpSetsPcToNnn : Prop :=
  ∀ (nnn : Addr12) (s : State), ∃ t, exec (.jmp nnn) s = .next t ∧ t.pc.toNat = nnn.toNat ∧ Keeps [.pc] s t ∧
    (nnn.toNat < 0x200 → t.checkPc = t.raiseFatal (.pcOutOfRange t.pc)) ∧
    (0x200 ≤ nnn.toNat → nnn.toNat % 2 = 1 → t.checkPc = t.raiseFatal (.pcMisaligned t.pc))

/-- R86 JMP.V: `pc := nnn + x[0]`, with no reduction modulo 4096, nothing else; CheckPc then raises as R86 says
(the odd case is the spec's decision D1, log 21). -/
def Obligations.JmpVAddsRegisterZero : Prop :=
  ∀ (nnn : Addr12) (s : State), ∃ t, exec (.jmpV nnn) s = .next t ∧ t.pc.toNat = nnn.toNat + (s.reg 0).toNat ∧
    Keeps [.pc] s t ∧
    (nnn.toNat + (s.reg 0).toNat < 0x200 ∨ 0xFFF < nnn.toNat + (s.reg 0).toNat →
      t.checkPc = t.raiseFatal (.pcOutOfRange t.pc)) ∧
    (0x200 ≤ nnn.toNat + (s.reg 0).toNat → nnn.toNat + (s.reg 0).toNat ≤ 0xFFF →
      (nnn.toNat + (s.reg 0).toNat) % 2 = 1 → t.checkPc = t.raiseFatal (.pcMisaligned t.pc))

/-- R84 CALL: with room on the stack, the CALL's own address is written at `stack[sp]`, `sp` is incremented and `pc := nnn`; every
other entry and every other part is unchanged. -/
def Obligations.CallPushesItsOwnAddress : Prop :=
  ∀ (nnn : Addr12) (s : State), s.sp.val < 16 → ∃ t, exec (.call nnn) s = .next t ∧
    (∀ k : Fin 16, t.stack[k] = if k.val = s.sp.val then s.pc else s.stack[k]) ∧
    t.sp.val = s.sp.val + 1 ∧ t.pc.toNat = nnn.toNat ∧ Keeps [.pc, .stack, .sp] s t

/-- R85 RET: with something saved, `sp` is decremented and `pc` is the popped value plus `RET_RESUME_OFFSET` = 2 (the spec's
decision D2, log 13); the popped entry stays. -/
def Obligations.RetResumesAfterTheSavedAddress : Prop :=
  ∀ (s : State) (k : Fin 16), s.sp.val = k.val + 1 → ∃ t, exec .ret s = .next t ∧
    t.sp.val = k.val ∧ t.pc = s.stack[k] + 2 ∧ Keeps [.pc, .sp] s t

/-- R84, R85, R150: a push with `sp = 16` raises Fatal.StackOverflow, a pop with `sp = 0` raises Fatal.StackUnderflow, each with the
instruction's `pc`, and nothing is written (taken as a next state: log 1). -/
def Obligations.FullAndEmptyStackAreFatal : Prop :=
  ∀ (nnn : Addr12) (s : State),
    (s.sp.val = 16 → exec (.call nnn) s = .next (s.raiseFatal (.stackOverflow s.pc))) ∧
    (s.sp.val = 0 → exec .ret s = .next (s.raiseFatal (.stackUnderflow s.pc)))

/-- R85, C3: RET pops exactly the value CALL pushed; after CALL then RET execution resumes at the instruction after the CALL and
the stack count is as before. -/
def Obligations.CallThenRetResumesAfterTheCall : Prop :=
  ∀ (nnn : Addr12) (s t u : State), s.sp.val < 16 → exec (.call nnn) s = .next t → exec .ret t = .next u →
    u.pc = s.pc + 2 ∧ u.sp = s.sp ∧ Keeps [.pc, .stack] s u

/-- R87 to R90: the skips advance `pc` by 4 when their condition holds, by 2 otherwise, and change nothing else; CheckPc raises
Fatal.PcOutOfRange when the new `pc` exceeds 0xFFF. -/
def Obligations.RegisterSkipsAdvanceByFourOrTwo : Prop :=
  ∀ (x y : Reg) (kk : Byte) (s : State),
    (∃ t, exec (.skipCmp x kk) s = .next t ∧
      t.pc = s.pc + (if (s.reg x).toNat = kk.toNat then 4 else 2) ∧ Keeps [.pc] s t ∧
      (0xFFF < t.pc.toNat → t.checkPc = t.raiseFatal (.pcOutOfRange t.pc))) ∧
    (∃ t, exec (.skipNcmp x kk) s = .next t ∧
      t.pc = s.pc + (if (s.reg x).toNat = kk.toNat then 2 else 4) ∧ Keeps [.pc] s t ∧
      (0xFFF < t.pc.toNat → t.checkPc = t.raiseFatal (.pcOutOfRange t.pc))) ∧
    (∃ t, exec (.skipRcmp x y) s = .next t ∧
      t.pc = s.pc + (if (s.reg x).toNat = (s.reg y).toNat then 4 else 2) ∧ Keeps [.pc] s t ∧
      (0xFFF < t.pc.toNat → t.checkPc = t.raiseFatal (.pcOutOfRange t.pc))) ∧
    (∃ t, exec (.sne x y) s = .next t ∧
      t.pc = s.pc + (if (s.reg x).toNat = (s.reg y).toNat then 2 else 4) ∧ Keeps [.pc] s t ∧
      (0xFFF < t.pc.toNat → t.checkPc = t.raiseFatal (.pcOutOfRange t.pc)))

/-- R91, R155: an unrecognised opcode is a no-op that advances `pc` by 2; the report on `diag_out` is the model's record of a
diagnostic that is not state (log 11). -/
def Obligations.UnrecognizedIsAReportedNoOp : Prop :=
  ∀ (op : Word) (s : State), ∃ t, exec (.unrecognized op) s = .next t ∧ t.pc = s.pc + 2 ∧
    t.diagOut = .unrecognized s.pc op :: s.diagOut ∧ Keeps [.pc, .diagOut] s t

/-! ### Registers and arithmetic (41_alu.md) -/

/-- R101, R103, R142: MVI, MOV and LDX.DT write their value to `x[X]`, with no flag; every other register and part is unchanged. -/
def Obligations.LoadsWriteTheirDestinationOnly : Prop :=
  ∀ (x y : Reg) (kk : Byte) (s : State),
    (∃ t, exec (.mvi x kk) s = .next t ∧ t.reg x = kk ∧ (∀ r, r ≠ x → t.reg r = s.reg r) ∧ t.pc = s.pc + 2 ∧
      Keeps [.pc, .x] s t) ∧
    (∃ t, exec (.mov x y) s = .next t ∧ t.reg x = s.reg y ∧ (∀ r, r ≠ x → t.reg r = s.reg r) ∧ t.pc = s.pc + 2 ∧
      Keeps [.pc, .x] s t) ∧
    (∃ t, exec (.ldxDt x) s = .next t ∧ t.reg x = s.dt ∧ (∀ r, r ≠ x → t.reg r = s.reg r) ∧ t.pc = s.pc + 2 ∧
      Keeps [.pc, .x] s t)

/-- R102 ADD Vx,kk: the sum modulo 256; `x[15]` is not touched unless it is the destination. -/
def Obligations.AddImmediateWrapsWithoutFlag : Prop :=
  ∀ (x : Reg) (kk : Byte) (s : State), ∃ t, exec (.addImm x kk) s = .next t ∧
    (t.reg x).toNat = ((s.reg x).toNat + kk.toNat) % 256 ∧ (∀ r, r ≠ x → t.reg r = s.reg r) ∧ t.pc = s.pc + 2 ∧
    Keeps [.pc, .x] s t

/-- R104 to R106: OR, AND, XOR work bit by bit on the destination; `x[15]` is not changed unless it is the destination
(90_conflicts.md C7). -/
def Obligations.LogicWorksBitByBitWithoutFlag : Prop :=
  ∀ (x y : Reg) (s : State),
    (∃ t, exec (.or x y) s = .next t ∧
      (∀ k : Nat, k < 8 → (t.reg x).getLsbD k = ((s.reg x).getLsbD k || (s.reg y).getLsbD k)) ∧
      (∀ r, r ≠ x → t.reg r = s.reg r) ∧ t.pc = s.pc + 2 ∧ Keeps [.pc, .x] s t) ∧
    (∃ t, exec (.and x y) s = .next t ∧
      (∀ k : Nat, k < 8 → (t.reg x).getLsbD k = ((s.reg x).getLsbD k && (s.reg y).getLsbD k)) ∧
      (∀ r, r ≠ x → t.reg r = s.reg r) ∧ t.pc = s.pc + 2 ∧ Keeps [.pc, .x] s t) ∧
    (∃ t, exec (.xor x y) s = .next t ∧
      (∀ k : Nat, k < 8 → (t.reg x).getLsbD k = ((s.reg x).getLsbD k ^^ (s.reg y).getLsbD k)) ∧
      (∀ r, r ≠ x → t.reg r = s.reg r) ∧ t.pc = s.pc + 2 ∧ Keeps [.pc, .x] s t)

/-- R107, R100 ADD Vx,Vy: the sum modulo 256; `x[15]` is 1 exactly when the sum exceeds 255, unless `X = 15`, where the result
stays. -/
def Obligations.AddSetsCarryThenResult : Prop :=
  ∀ (x y : Reg) (s : State), ∃ t, exec (.add x y) s = .next t ∧
    (t.reg x).toNat = ((s.reg x).toNat + (s.reg y).toNat) % 256 ∧
    (x ≠ 15 → (t.reg 15).toNat = if (s.reg x).toNat + (s.reg y).toNat > 255 then 1 else 0) ∧
    (∀ r, r ≠ x → r ≠ 15 → t.reg r = s.reg r) ∧ t.pc = s.pc + 2 ∧ Keeps [.pc, .x] s t

/-- R108, R110, R100 SUB and SUBN: the difference modulo 256 of `x[X]` and `x[Y]`, or of `x[Y]` and `x[X]`, into `x[X]`; `x[15]` is 1
exactly when no borrow occurred, unless `X = 15`. Operands are sampled before the flag is written (the spec's decision D11, log
17). -/
def Obligations.SubtractionsSetNoBorrowThenResult : Prop :=
  ∀ (x y : Reg) (s : State),
    (∃ t, exec (.sub x y) s = .next t ∧
      ((t.reg x).toNat : Int) = ((s.reg x).toNat - (s.reg y).toNat : Int) % 256 ∧
      (x ≠ 15 → (t.reg 15).toNat = if (s.reg x).toNat ≥ (s.reg y).toNat then 1 else 0) ∧
      (∀ r, r ≠ x → r ≠ 15 → t.reg r = s.reg r) ∧ t.pc = s.pc + 2 ∧ Keeps [.pc, .x] s t) ∧
    (∃ t, exec (.subn x y) s = .next t ∧
      ((t.reg x).toNat : Int) = ((s.reg y).toNat - (s.reg x).toNat : Int) % 256 ∧
      (x ≠ 15 → (t.reg 15).toNat = if (s.reg y).toNat ≥ (s.reg x).toNat then 1 else 0) ∧
      (∀ r, r ≠ x → r ≠ 15 → t.reg r = s.reg r) ∧ t.pc = s.pc + 2 ∧ Keeps [.pc, .x] s t)

/-- R109, R111, R113 SHR and SHL: half of `x[X]` rounded down, or twice it modulo 256; `x[15]` is the bit shifted out, unless
`X = 15`; the `Y` field takes no part. Operands are sampled before the flag is written (D11, log 17). -/
def Obligations.ShiftsSetTheBitShiftedOutThenResult : Prop :=
  ∀ (x y : Reg) (s : State),
    (∃ t, exec (.shr x y) s = .next t ∧ (t.reg x).toNat = (s.reg x).toNat / 2 ∧
      (x ≠ 15 → (t.reg 15).toNat = (s.reg x).toNat % 2) ∧
      (∀ r, r ≠ x → r ≠ 15 → t.reg r = s.reg r) ∧ t.pc = s.pc + 2 ∧ Keeps [.pc, .x] s t) ∧
    (∃ t, exec (.shl x y) s = .next t ∧ (t.reg x).toNat = 2 * (s.reg x).toNat % 256 ∧
      (x ≠ 15 → (t.reg 15).toNat = if (s.reg x).toNat ≥ 128 then 1 else 0) ∧
      (∀ r, r ≠ x → r ≠ 15 → t.reg r = s.reg r) ∧ t.pc = s.pc + 2 ∧ Keeps [.pc, .x] s t)

/-- R112 RAND: the result is the draw masked by `kk`, so it has no bit outside `kk`, and the next draw is another one. The draw is a
free value: the statement holds whatever it is (log 9). -/
def Obligations.RandMasksAFreeDraw : Prop :=
  ∀ (x : Reg) (kk : Byte) (s : State), ∃ t, exec (.rand x kk) s = .next t ∧
    (∀ k : Nat, k < 8 → (t.reg x).getLsbD k = ((Config.randomByte s.draws).getLsbD k && kk.getLsbD k)) ∧
    (kk = 0 → t.reg x = 0) ∧ t.draws = s.draws + 1 ∧
    (∀ r, r ≠ x → t.reg r = s.reg r) ∧ t.pc = s.pc + 2 ∧ Keeps [.pc, .x, .draws] s t

/-! ### Index register and memory (42_index_memory.md, 20_memory.md) -/

/-- R120 LDI: `I` is `nnn` with the top four bits 0, for every `nnn`, and nothing else changes. -/
def Obligations.LdiLoadsTheAddress : Prop :=
  ∀ (nnn : Addr12) (s : State), ∃ t, exec (.ldi nnn) s = .next t ∧ t.I.toNat = nnn.toNat ∧ t.pc = s.pc + 2 ∧
    Keeps [.pc, .I] s t

/-- R121, R122: ADDI.X adds a register modulo 65536 with no flag, LDI.FX gives the address of a glyph; no other part changes. No
flag, no mask and the wrap are the spec's decisions D12 and D21 (log 23), `FONT_BASE` is its default (log 6). -/
def Obligations.IndexRegisterInstructionsSetI : Prop :=
  ∀ (x : Reg) (s : State),
    (∃ t, exec (.addiX x) s = .next t ∧ t.I.toNat = (s.I.toNat + (s.reg x).toNat) % 65536 ∧ t.pc = s.pc + 2 ∧
      Keeps [.pc, .I] s t) ∧
    (∃ t, exec (.ldiFx x) s = .next t ∧ t.I.toNat = fontBase + 5 * (s.reg x).toNat ∧ t.pc = s.pc + 2 ∧
      Keeps [.pc, .I] s t)

/-- R41, R46: a single access inside memory reads or writes its one byte; above 0xFFF it raises Fatal.MemoryBounds and is never
wrapped (that it is fatal is the spec's decision D4, log 18). -/
def Obligations.MemoryPrimitivesRaiseAboveTheTop : Prop :=
  ∀ (s : State) (a : Nat) (v : Byte), Memory.wf s.mem = true →
    (0xFFF < a → s.memRead a = .error (.memoryBounds a) ∧ s.memWrite a v = .error (.memoryBounds a)) ∧
    (a ≤ 0xFFF → s.memRead a = .ok (s.byteAt a) ∧ ∃ t, s.memWrite a v = .ok t ∧ t.byteAt a = v ∧
      (∀ b : Nat, b ≠ a → t.byteAt b = s.byteAt b) ∧ Keeps [.mem] s t)

/-- R123 LDB.X: the three decimal digits of `x[X]`, hundreds first, at `I`, `I + 1`, `I + 2`; every other byte and every other part,
`I` included, is unchanged (D12, log 23). -/
def Obligations.LdbStoresThreeDecimalDigits : Prop :=
  ∀ (x : Reg) (s : State), Memory.wf s.mem = true → s.I.toNat ≤ 0xFFD → ∃ t, exec (.ldbX x) s = .next t ∧
    (t.byteAt (indexBase s)).toNat ≤ 2 ∧ (t.byteAt (indexBase s + 1)).toNat ≤ 9 ∧
    (t.byteAt (indexBase s + 2)).toNat ≤ 9 ∧
    100 * (t.byteAt (indexBase s)).toNat + 10 * (t.byteAt (indexBase s + 1)).toNat +
      (t.byteAt (indexBase s + 2)).toNat = (s.reg x).toNat ∧
    (∀ a : Nat, a < indexBase s ∨ indexBase s + 3 ≤ a → t.byteAt a = s.byteAt a) ∧ t.pc = s.pc + 2 ∧
    Keeps [.pc, .mem] s t

/-- R124 LDI.ALL: registers 0 to X to memory from `I`; every other byte and every other part, `I` included, is unchanged (D12, log
23). -/
def Obligations.LdiAllStoresRegistersZeroToX : Prop :=
  ∀ (x : Reg) (s : State), Memory.wf s.mem = true → s.I.toNat + x.val ≤ 0xFFF → ∃ t, exec (.ldiAll x) s = .next t ∧
    (∀ r : Reg, r ≤ x → t.byteAt (indexBase s + r.val) = s.reg r) ∧
    (∀ a : Nat, a < indexBase s ∨ indexBase s + x.val < a → t.byteAt a = s.byteAt a) ∧ t.pc = s.pc + 2 ∧
    Keeps [.pc, .mem] s t

/-- R125 LDX.ALL: registers 0 to X from memory at `I`; every higher register and every other part, `I` included, is unchanged (D12,
log 23). -/
def Obligations.LdxAllLoadsRegistersZeroToX : Prop :=
  ∀ (x : Reg) (s : State), s.I.toNat + x.val ≤ 0xFFF → ∃ t, exec (.ldxAll x) s = .next t ∧
    (∀ r : Reg, r ≤ x → t.reg r = s.byteAt (indexBase s + r.val)) ∧ (∀ r : Reg, x < r → t.reg r = s.reg r) ∧
    t.pc = s.pc + 2 ∧ Keeps [.pc, .x] s t

/-- R47, R150: an instruction whose range leaves memory raises Fatal.MemoryBounds(I) before any access and has no effect at all. The
sum is not reduced. That the error is fatal and all or nothing is the spec's decision D4 (log 18); it is taken as a
next state (log 1). -/
def Obligations.RangeAboveTheTopIsFatalWithoutEffect : Prop :=
  ∀ (x y : Reg) (n : Fin 16) (s : State),
    (0xFFD < s.I.toNat → exec (.ldbX x) s = .next (s.raiseFatal (.memoryBounds s.I.toNat))) ∧
    (0xFFF < s.I.toNat + x.val → exec (.ldiAll x) s = .next (s.raiseFatal (.memoryBounds s.I.toNat)) ∧
      exec (.ldxAll x) s = .next (s.raiseFatal (.memoryBounds s.I.toNat))) ∧
    (1 ≤ n.val → 0x1000 < s.I.toNat + n.val →
      exec (.drw x y n) s = .next (s.raiseFatal (.memoryBounds s.I.toNat)))

/-- R124, R125: what LDI.ALL stores LDX.ALL loads back, into whatever registers held meanwhile. It rests on LDI.ALL leaving `I`
unchanged, the spec's decision D12 (log 23). -/
def Obligations.LdxAllRestoresWhatLdiAllStored : Prop :=
  ∀ (x : Reg) (s t u v : State), Memory.wf s.mem = true → s.I.toNat + x.val ≤ 0xFFF → exec (.ldiAll x) s = .next t →
    Keeps [.pc, .x] t u → exec (.ldxAll x) u = .next v → ∀ r : Reg, r ≤ x → v.reg r = s.reg r

/-- R52, R44: bytes stored by LDI.ALL over the next instruction are what the next step fetches, `x[0]` as the high byte. -/
def Obligations.StoredCodeIsFetchedAtOnce : Prop :=
  ∀ (x : Reg) (s t : State), Memory.wf s.mem = true → 1 ≤ x.val → s.I = s.pc + 2 → s.pc.toNat ≤ 0xFFC →
    s.I.toNat + x.val ≤ 0xFFF → exec (.ldiAll x) s = .next t → t.fetch = .ok (wordOfBytes (s.reg 0) (s.reg 1))

/-! ### Display (43_display.md) -/

/-- R131 CLS: all 2048 pixels 0 whatever was shown, nothing else; that `draw_requested` stays is the spec's decision D25 (log 22). -/
def Obligations.ClsClearsEveryPixel : Prop :=
  ∀ (s : State), ∃ t, exec .cls s = .next t ∧ (∀ (c : Fin 64) (r : Fin 32), t.pixel c r = false) ∧ t.pc = s.pc + 2 ∧
    Keeps [.pc, .fb] s t

/-- R132, R133 DRW: every pixel is exclusive-ored with the sprite bit that maps to it, wrapping per pixel; `x[15]` is 1 exactly when
a lit pixel was turned off; `draw_requested` is set; nothing else changes. With `n = 0` there is no condition on `I` (D20, log 24).
Which end of a sprite byte is column 0 is the spec's decision D10 (log 16). -/
def Obligations.DrwXorsTheSpriteAndReportsCollision : Prop :=
  ∀ (x y : Reg) (n : Fin 16) (s : State), n.val = 0 ∨ s.I.toNat + n.val ≤ 0x1000 →
    ∃ t, exec (.drw x y n) s = .next t ∧
      (∀ (c : Fin 64) (r : Fin 32), t.pixel c r = true ↔
        ¬ (s.pixel c r = true ↔ SpriteLit s (s.reg x).toNat (s.reg y).toNat n.val c r)) ∧
      ((∃ (c : Fin 64) (r : Fin 32), s.pixel c r = true ∧ SpriteLit s (s.reg x).toNat (s.reg y).toNat n.val c r) →
        t.reg 15 = 1) ∧
      ((¬ ∃ (c : Fin 64) (r : Fin 32), s.pixel c r = true ∧ SpriteLit s (s.reg x).toNat (s.reg y).toNat n.val c r) →
        t.reg 15 = 0) ∧
      (∀ r, r ≠ 15 → t.reg r = s.reg r) ∧ t.drawRequested = true ∧ t.pc = s.pc + 2 ∧
      Keeps [.pc, .x, .fb, .drawRequested] s t

/-- R133: two DRW with the same `I`, memory, `vx mod 64` and `vy mod 32` cancel. R132: the second reports a collision exactly when
the first lit a pixel, that is when some pixel of the sprite was dark before; so on a cleared display it does for every sprite
with a 1 bit. R132's corner case says it for every display; its pseudocode, its flag clause and R133 give this (log 33). The sprite's bits are
placed by the bit order D10 (PRESUMED, log 16), and `n = 0` asks nothing of `I` by D20 (log 24). -/
def Obligations.DrawingTwiceRestoresThePicture : Prop :=
  ∀ (x y x' y' : Reg) (n : Fin 16) (s t u : State), n.val = 0 ∨ s.I.toNat + n.val ≤ 0x1000 →
    exec (.drw x y n) s = .next t →
    (t.reg x').toNat % 64 = (s.reg x).toNat % 64 → (t.reg y').toNat % 32 = (s.reg y).toNat % 32 →
    exec (.drw x' y' n) t = .next u →
    (∀ (c : Fin 64) (r : Fin 32), u.pixel c r = s.pixel c r) ∧
    ((∃ (c : Fin 64) (r : Fin 32), s.pixel c r = false ∧ SpriteLit s (s.reg x).toNat (s.reg y).toNat n.val c r) →
      u.reg 15 = 1) ∧
    ((¬ ∃ (c : Fin 64) (r : Fin 32), s.pixel c r = false ∧ SpriteLit s (s.reg x).toNat (s.reg y).toNat n.val c r) →
      u.reg 15 = 0) ∧
    ((∃ k j : Nat, k < n.val ∧ j < 8 ∧ (s.byteAt (s.I.toNat + k)).getLsbD j = true) → s.fb = Framebuffer.clear →
      u.reg 15 = 1)

/-! ### Timers and keypad (44_timer_keypad.md) -/

/-- R140, R141: with a key index up to 15 the key's level alone decides the skip, and nothing but `pc` changes. -/
def Obligations.KeySkipsTestTheKeyLevel : Prop :=
  ∀ (x : Reg) (k : Fin 16) (s : State), (s.reg x).toNat = k.val →
    (∃ t, exec (.skipKeyx x) s = .next t ∧ t.pc = s.pc + (if s.key[k] = true then 4 else 2) ∧ Keeps [.pc] s t) ∧
    (∃ t, exec (.skipnKeyx x) s = .next t ∧ t.pc = s.pc + (if s.key[k] = true then 2 else 4) ∧ Keeps [.pc] s t)

/-- R140, R141, R150: a key index above 15 raises Fatal.KeyIndexOutOfRange, with no masking and no other effect (the spec's decision
D5, log 19; taken as a next state: log 1). -/
def Obligations.KeyIndexAboveFifteenIsFatal : Prop :=
  ∀ (x : Reg) (s : State), 15 < (s.reg x).toNat →
    exec (.skipKeyx x) s = .next (s.raiseFatal (.keyIndexOutOfRange (s.reg x))) ∧
    exec (.skipnKeyx x) s = .next (s.raiseFatal (.keyIndexOutOfRange (s.reg x)))

/-- R143 LDX.KEY with an edge: the smallest key that went down since the last frame is stored and the instruction completes; that it
is the smallest is the spec's decision D6 (log 20). -/
def Obligations.KeyWaitStoresTheLowestEdge : Prop :=
  ∀ (x : Reg) (k : Fin 16) (s : State), s.key[k] = true → s.keyprev[k] = false →
    (∀ j : Fin 16, j < k → ¬ (s.key[j] = true ∧ s.keyprev[j] = false)) →
    ∃ t, exec (.ldxKey x) s = .next t ∧ (t.reg x).toNat = k.val ∧ (∀ r, r ≠ x → t.reg r = s.reg r) ∧
      t.pc = s.pc + 2 ∧ Keeps [.pc, .x] s t

/-- R143 LDX.KEY with no edge: `Hold`, nothing at all changes. -/
def Obligations.KeyWaitHoldsWithoutAnEdge : Prop :=
  ∀ (x : Reg) (s : State), (∀ k : Fin 16, s.key[k] = true → s.keyprev[k] = true) → exec (.ldxKey x) s = .next s

/-- R144, R145: LDDT.X and LDST.X set their timer to the register's value and nothing else; the first decrement is at the next
frame boundary; the tone is enabled exactly when the value written is not 0. -/
def Obligations.TimerLoadsSetTheirTimer : Prop :=
  ∀ (x : Reg) (s : State),
    (∃ t, exec (.lddtX x) s = .next t ∧ t.dt = s.reg x ∧ t.frameBoundary.dt.toNat = (s.reg x).toNat - 1 ∧
      t.pc = s.pc + 2 ∧ Keeps [.pc, .dt] s t) ∧
    (∃ t, exec (.ldstX x) s = .next t ∧ t.st = s.reg x ∧ t.frameBoundary.st.toNat = (s.reg x).toNat - 1 ∧
      (t.toneEnable = true ↔ (s.reg x).toNat > 0) ∧ t.pc = s.pc + 2 ∧ Keeps [.pc, .st] s t)

/-! ### The frame sequencer (60_exceptions.md) -/

/-- R161: `TickTimers` once: each timer goes to `max(t - 1, 0)`, nothing else changes; a timer loaded with `v` reads 0 after `v`
ticks. -/
def Obligations.TickCountsDownToZero : Prop :=
  ∀ (s : State), (s.tickTimers.dt.toNat = s.dt.toNat - 1 ∧ s.tickTimers.st.toNat = s.st.toNat - 1 ∧
      Keeps [.dt, .st] s s.tickTimers) ∧
    ∀ k : Nat, (State.tickTimers^[k] s).dt.toNat = s.dt.toNat - k ∧ (State.tickTimers^[k] s).st.toNat = s.st.toNat - k

/-- R162: `LatchCopy` makes `keyprev` equal to `key` and changes nothing else, so no edge is visible until the next poll. -/
def Obligations.LatchCopyHidesEveryEdge : Prop :=
  ∀ (s : State), (∀ k : Fin 16, s.latchCopy.keyprev[k] = s.key[k]) ∧ Keeps [.keyprev] s s.latchCopy ∧
    ∀ k : Fin 16, keyEdge s.latchCopy k = false

/-- R160, R163, R164, R166: a frame boundary copies the key latch, hands the picture over and clears the request if there was one,
ticks both timers, takes the host's key levels and sets `exit_requested` on a quit level; it clears `exit_requested` never. The
order is the spec's decision D14 (log 12), the sample, the picture and the tone before the tick are the model's records (logs 10,
11, 32). -/
def Obligations.FrameBoundaryServicesTimersKeysAndHost : Prop :=
  ∀ (s : State),
    s.frameBoundary.keyprev = s.key ∧ s.frameBoundary.key = s.nextSample.keys ∧
    s.frameBoundary.dt.toNat = s.dt.toNat - 1 ∧ s.frameBoundary.st.toNat = s.st.toNat - 1 ∧
    s.frameBoundary.stBeforeTick = s.st ∧
    (s.drawRequested = true → s.frameBoundary.fbOut = some s.fb) ∧
    (s.drawRequested = false → s.frameBoundary.fbOut = s.fbOut) ∧ s.frameBoundary.drawRequested = false ∧
    (s.frameBoundary.exitRequested = true ↔ s.exitRequested = true ∨ s.nextSample.quit = true)

/-- R156: a frame boundary never changes `pc`, a register, `I`, the stack, memory or the picture. -/
def Obligations.FrameBoundaryNeverTouchesTheProgram : Prop := ∀ (s : State), Keeps boundaryParts s s.frameBoundary

/-- R160: within a batch the sequencer only counts; the step that completes the batch is followed by the frame boundary, and the next
batch starts at 0. Counting to 0 in the same step is the model's (logs 5, 12). -/
def Obligations.BatchEndsWithAFrameBoundary : Prop :=
  ∀ (t : State), t.exitRequested = false →
    (t.frameStep + 1 < t.stepsPerFrame → t.sequence.frameStep = t.frameStep + 1 ∧ Keeps [.frameStep] t t.sequence) ∧
    (t.stepsPerFrame ≤ t.frameStep + 1 → t.sequence.frameStep = 0 ∧
      ∀ p : Part, p ≠ .frameStep → p.Same t.frameBoundary t.sequence)

/-- R184: with `STEPS_PER_FRAME = 0` no instruction runs: a step is a frame boundary only (log 12). -/
def Obligations.EmptyBatchesRunNoInstruction : Prop :=
  ∀ (s : State), s.exitRequested = false → s.frequency < s.refreshRate → step s = .next s.frameBoundary

/-- R163, R185: an edge brought in by a poll is visible: after a frame boundary a key has an edge exactly when it was up before and
the host presents it down. The host's sample is the model's queue or a free value (log 10). -/
def Obligations.PollBringsExactlyTheNewKeyEdges : Prop :=
  ∀ (s : State) (k : Fin 16), keyEdge s.frameBoundary k = true ↔ s.nextSample.keys[k] = true ∧ s.key[k] = false

/-- R50, R165: every level of `tone_enable` that a completed step or a tick leaves is in the state after the model step. Where no
frame boundary follows, the level is that of the `st` the instruction left, also when CheckPc raises; where one follows, that
level is `toneBeforeTick`, and the level the tick leaves is `toneEnable`. That the boundary is in the same model step, and the
record, are the model's (logs 12, 32). -/
def Obligations.ToneShowsWhatEveryStepAndTickLeft : Prop :=
  ∀ (t : State), t.exitRequested = false →
    (¬ LegalPc t.pc → (t.endStep.toneEnable = true ↔ t.st.toNat > 0)) ∧
    (t.frameStep + 1 < t.stepsPerFrame → (t.endStep.toneEnable = true ↔ t.st.toNat > 0)) ∧
    (LegalPc t.pc → t.stepsPerFrame ≤ t.frameStep + 1 →
      (t.endStep.toneBeforeTick = true ↔ t.st.toNat > 0) ∧ (t.endStep.toneEnable = true ↔ t.st.toNat > 1))
end

