-- ==== Sys2Proof/Laws/Decode.lean ====
section
/-! SUPPORT. The fields of an instruction word as numbers, and the fields of each encoded format. A pattern whose low bits are
free is written `n0 << 12`, one that fixes the low byte `n0 << 12 | low`. -/

namespace Sys2Proof

theorem fieldN0_val (op : Word) : (fieldN0 op).val = op.toNat / 4096 := by
  simp [fieldN0, Nat.shiftRight_eq_div_pow]; omega

theorem fieldN1_val (op : Word) : (fieldN1 op).val = op.toNat / 256 % 16 := by
  simp [fieldN1, Nat.shiftRight_eq_div_pow]

theorem fieldN2_val (op : Word) : (fieldN2 op).val = op.toNat / 16 % 16 := by
  simp [fieldN2, Nat.shiftRight_eq_div_pow]

theorem fieldN3_val (op : Word) : (fieldN3 op).val = op.toNat % 16 := by
  simp [fieldN3]

@[simp] theorem fieldKk_toNat (op : Word) : (fieldKk op).toNat = op.toNat % 256 := by
  simp [fieldKk]

@[simp] theorem fieldNnn_toNat (op : Word) : (fieldNnn op).toNat = op.toNat % 4096 := by
  simp [fieldNnn]

/-- The two bytes of a word in memory order are the word (R43). -/
@[simp] theorem wordOfBytes_bytes (op : Word) : wordOfBytes (highByte op) (lowByte op) = op := by
  refine BitVec.eq_of_getLsbD_eq fun i hi => ?_
  rw [wordOfBytes, BitVec.getLsbD_append]
  interval_cases i <;> simp [highByte, lowByte]

@[simp] theorem decode_encodeBytes (i : Instr) (rest : List Byte) :
    decode (highByte (encode i) :: lowByte (encode i) :: rest) = .ok (decodeWord (encode i), rest) := by
  simp [decode]

/-- A nibble is a register number exactly when it is that number's four bits. -/
theorem toFin_eq_iff (v : BitVec 4) (r : Fin 16) : v.toFin = r ↔ v = nibbleBits r :=
  ⟨by rintro rfl; rfl, by rintro rfl; rfl⟩

/-! ### Format NNN -/

theorem fieldN0_encodeNNN (n0 : BitVec 4) (nnn : Addr12) : fieldN0 (encodeNNN (n0.setWidth 16 <<< 12) nnn) = n0.toFin := by
  refine congrArg BitVec.toFin (BitVec.eq_of_getLsbD_eq fun i hi => ?_)
  interval_cases i <;> simp [encodeNNN]

theorem fieldNnn_encodeNNN (n0 : BitVec 4) (nnn : Addr12) : fieldNnn (encodeNNN (n0.setWidth 16 <<< 12) nnn) = nnn := by
  refine BitVec.eq_of_getLsbD_eq fun i hi => ?_
  interval_cases i <;> simp [fieldNnn, encodeNNN]

/-! ### Format XKK -/

theorem fieldN0_encodeXKK (n0 : BitVec 4) (x : Reg) (kk : Byte) : fieldN0 (encodeXKK (n0.setWidth 16 <<< 12) x kk) = n0.toFin := by
  refine congrArg BitVec.toFin (BitVec.eq_of_getLsbD_eq fun i hi => ?_)
  interval_cases i <;> simp [encodeXKK]

theorem fieldN1_encodeXKK (n0 : BitVec 4) (x : Reg) (kk : Byte) : fieldN1 (encodeXKK (n0.setWidth 16 <<< 12) x kk) = x := by
  refine (toFin_eq_iff _ _).2 (BitVec.eq_of_getLsbD_eq fun i hi => ?_)
  interval_cases i <;> simp [encodeXKK]

theorem fieldKk_encodeXKK (n0 : BitVec 4) (x : Reg) (kk : Byte) : fieldKk (encodeXKK (n0.setWidth 16 <<< 12) x kk) = kk := by
  refine BitVec.eq_of_getLsbD_eq fun i hi => ?_
  interval_cases i <;> simp [fieldKk, encodeXKK]

/-! ### Format XYN, and format XY as its case with the sub-opcode for the row count -/

theorem encodeXY_eq_encodeXYN (n0 n3 : BitVec 4) (x y : Reg) :
    encodeXY (n0.setWidth 16 <<< 12 ||| n3.setWidth 16) x y = encodeXYN (n0.setWidth 16 <<< 12) x y n3.toFin := by
  refine BitVec.eq_of_getLsbD_eq fun i hi => ?_
  interval_cases i <;> simp [encodeXY, encodeXYN, nibbleBits]

theorem fieldN0_encodeXYN (n0 : BitVec 4) (x y n : Fin 16) : fieldN0 (encodeXYN (n0.setWidth 16 <<< 12) x y n) = n0.toFin := by
  refine congrArg BitVec.toFin (BitVec.eq_of_getLsbD_eq fun i hi => ?_)
  interval_cases i <;> simp [encodeXYN]

theorem fieldN1_encodeXYN (n0 : BitVec 4) (x y n : Fin 16) : fieldN1 (encodeXYN (n0.setWidth 16 <<< 12) x y n) = x := by
  refine (toFin_eq_iff _ _).2 (BitVec.eq_of_getLsbD_eq fun i hi => ?_)
  interval_cases i <;> simp [encodeXYN]

theorem fieldN2_encodeXYN (n0 : BitVec 4) (x y n : Fin 16) : fieldN2 (encodeXYN (n0.setWidth 16 <<< 12) x y n) = y := by
  refine (toFin_eq_iff _ _).2 (BitVec.eq_of_getLsbD_eq fun i hi => ?_)
  interval_cases i <;> simp [encodeXYN]

theorem fieldN3_encodeXYN (n0 : BitVec 4) (x y n : Fin 16) : fieldN3 (encodeXYN (n0.setWidth 16 <<< 12) x y n) = n := by
  refine (toFin_eq_iff _ _).2 (BitVec.eq_of_getLsbD_eq fun i hi => ?_)
  interval_cases i <;> simp [encodeXYN]

/-! ### Format X -/

theorem fieldN0_encodeX (n0 : BitVec 4) (low : Byte) (x : Reg) : fieldN0 (encodeX (n0.setWidth 16 <<< 12 ||| low.setWidth 16) x) = n0.toFin := by
  refine congrArg BitVec.toFin (BitVec.eq_of_getLsbD_eq fun i hi => ?_)
  interval_cases i <;> simp [encodeX]

theorem fieldN1_encodeX (n0 : BitVec 4) (low : Byte) (x : Reg) : fieldN1 (encodeX (n0.setWidth 16 <<< 12 ||| low.setWidth 16) x) = x := by
  refine (toFin_eq_iff _ _).2 (BitVec.eq_of_getLsbD_eq fun i hi => ?_)
  interval_cases i <;> simp [encodeX]

theorem fieldKk_encodeX (n0 : BitVec 4) (low : Byte) (x : Reg) : fieldKk (encodeX (n0.setWidth 16 <<< 12 ||| low.setWidth 16) x) = low := by
  refine BitVec.eq_of_getLsbD_eq fun i hi => ?_
  interval_cases i <;> simp [fieldKk, encodeX]

end Sys2Proof
end

