-- ==== Sys2Proof/Laws/Memory.lean ====
section
/-! SUPPORT. The laws of memory: a read after a write, and the canonical form, which every memory operation keeps. -/

namespace Sys2Proof.Machine

@[simp] theorem Config.memSize_eq : Config.memSize = 0x1000 := rfl
@[simp] theorem Config.progBase_eq : Config.progBase = 0x200 := rfl

@[simp] theorem Memory.get_entry_append (m : Memory) (a b : Nat) (v : Byte) (h : a ≠ b ∨ m.get a = Memory.resetByte a) :
    (Memory.entry a v ++ m).get b = if a = b then v else m.get b := by
  unfold Memory.entry
  split <;> by_cases hab : a = b <;> simp_all [Memory.get]

/-- An address below every listed one reads as unlisted. -/
theorem Memory.get_of_lt (m : Memory) (a : Nat) (h : ∀ c ∈ m, a < c.1) : m.get a = Memory.resetByte a := by
  induction m with
  | nil => rfl
  | cons c m ih =>
    have hc := h c (by simp)
    simp only [Memory.get, show ¬ c.1 = a by omega, if_false]
    exact ih fun d hd => h d (by simp [hd])

/-- Rising addresses: the first conjunct of the canonical form. -/
abbrev Memory.Rising (m : Memory) : Prop := m.Pairwise (fun c d => c.1 < d.1)

/-- A read after a write. -/
theorem Memory.get_set {m : Memory} (hm : m.Rising) (a b : Nat) (v : Byte) :
    (m.set a v).get b = if a = b then v else m.get b := by
  induction m with
  | nil => simpa [Memory.set] using Memory.get_entry_append [] a b v (.inr rfl)
  | cons c m ih =>
    obtain ⟨hc, hm⟩ := List.pairwise_cons.1 hm
    unfold Memory.set
    split
    · rename_i h
      apply Memory.get_entry_append
      refine .inr (Memory.get_of_lt _ _ fun d hd => ?_)
      rcases List.mem_cons.1 hd with rfl | hd
      · exact h
      · have := hc d hd; omega
    · split
      · rename_i h
        subst h
        rw [Memory.get_entry_append _ _ _ _ (.inr (Memory.get_of_lt _ _ hc))]
        by_cases hb : c.1 = b <;> simp [Memory.get, hb]
      · rename_i h₁ h₂
        by_cases hb : c.1 = b
        · subst hb
          simp [Memory.get, show ¬ a = c.1 by omega]
        · simp [Memory.get, hb, ih hm]

theorem Memory.mem_entry {a : Nat} {v : Byte} {c : Host.Cell} :
    c ∈ Memory.entry a v ↔ v ≠ Memory.resetByte a ∧ c = (a, v) := by
  unfold Memory.entry
  split <;> simp_all

/-- A cell listed after a write is the one written or was listed before. -/
theorem Memory.mem_set {m : Memory} {a : Nat} {v : Byte} {c : Host.Cell} (h : c ∈ m.set a v) :
    (v ≠ Memory.resetByte a ∧ c = (a, v)) ∨ c ∈ m := by
  induction m with
  | nil => exact .inl (Memory.mem_entry.1 h)
  | cons d m ih =>
    unfold Memory.set at h
    split at h
    · exact (List.mem_append.1 h).imp Memory.mem_entry.1 id
    · split at h
      · exact (List.mem_append.1 h).imp Memory.mem_entry.1 (List.mem_cons_of_mem _)
      · rcases List.mem_cons.1 h with rfl | h
        · exact .inr (by simp)
        · exact (ih h).imp id (List.mem_cons_of_mem _)

theorem Memory.rising_entry_append {m : Memory} {a : Nat} {v : Byte} (hm : m.Rising) (h : ∀ c ∈ m, a < c.1) :
    (Memory.entry a v ++ m).Rising := by
  unfold Memory.entry
  split
  · simpa using hm
  · simpa [Memory.Rising] using ⟨fun x y hxy => h (x, y) hxy, hm⟩

/-- A write keeps addresses rising. -/
theorem Memory.rising_set {m : Memory} (hm : m.Rising) (a : Nat) (v : Byte) : (m.set a v).Rising := by
  induction m with
  | nil => simpa [Memory.set] using Memory.rising_entry_append (a := a) (v := v) hm (by simp)
  | cons c m ih =>
    obtain ⟨hc, hm'⟩ := List.pairwise_cons.1 hm
    unfold Memory.set
    split
    · rename_i h
      refine Memory.rising_entry_append hm fun d hd => ?_
      rcases List.mem_cons.1 hd with rfl | hd
      · exact h
      · have := hc d hd; omega
    · split
      · rename_i h
        subst h
        exact Memory.rising_entry_append hm' hc
      · rename_i h₁ h₂
        refine List.pairwise_cons.2 ⟨fun d hd => ?_, ih hm'⟩
        rcases Memory.mem_set hd with ⟨-, rfl⟩ | hd
        · show c.1 < a
          omega
        · exact hc d hd

/-- The canonical form, as a proposition. -/
theorem Memory.wf_iff (m : Memory) : m.wf = true ↔
    m.Rising ∧ ∀ c ∈ m, c.1 < 0x1000 ∧ c.2 ≠ Memory.resetByte c.1 := by
  simp [Memory.wf, Memory.Rising]

@[simp] theorem Memory.wf_nil : Memory.wf [] = true := by decide

/-- A write inside memory keeps the canonical form. -/
theorem Memory.wf_set {m : Memory} (hm : m.wf = true) {a : Nat} (ha : a < 0x1000) (v : Byte) :
    (m.set a v).wf = true := by
  rw [Memory.wf_iff] at hm ⊢
  refine ⟨Memory.rising_set hm.1 a v, fun c hc => ?_⟩
  rcases Memory.mem_set hc with ⟨hv, rfl⟩ | hc
  · exact ⟨ha, hv⟩
  · exact hm.2 c hc

/-- A run of writes keeps addresses rising. -/
theorem Memory.rising_setAll {m : Memory} (hm : m.Rising) (a : Nat) (vs : List Byte) : (m.setAll a vs).Rising := by
  induction vs generalizing m a with
  | nil => exact hm
  | cons v vs ih => exact ih (Memory.rising_set hm a v) _

/-- A run of writes inside memory keeps the canonical form. -/
theorem Memory.wf_setAll {m : Memory} (hm : m.wf = true) (a : Nat) (vs : List Byte)
    (h : a + vs.length ≤ 0x1000) : (m.setAll a vs).wf = true := by
  induction vs generalizing m a with
  | nil => exact hm
  | cons v vs ih =>
    simp only [List.length_cons] at h
    exact ih (Memory.wf_set hm (by omega) v) _ (by omega)

/-- A read after a run of writes: the byte written there, else the byte that stood there. -/
theorem Memory.get_setAll {m : Memory} (hm : m.Rising) (a b : Nat) (vs : List Byte) :
    (m.setAll a vs).get b = if a ≤ b ∧ b < a + vs.length then vs.getD (b - a) 0 else m.get b := by
  induction vs generalizing m a with
  | nil => simp [Memory.setAll, show ¬ (a ≤ b ∧ b < a) by omega]
  | cons v vs ih =>
    rw [Memory.setAll, ih (Memory.rising_set hm a v), Memory.get_set hm]
    by_cases h : a = b
    · subst h; simp
    · by_cases h' : a + 1 ≤ b ∧ b < a + 1 + vs.length
      · rw [if_pos h', if_pos (by simp only [List.length_cons]; omega),
          show b - a = (b - (a + 1)) + 1 by omega, List.getD_cons_succ]
      · rw [if_neg h', if_neg h, if_neg (by simp only [List.length_cons]; omega)]

end Sys2Proof.Machine
end

