-- ==== Sys2Proof/Laws/State.lean ====
section
/-! SUPPORT. One lemma per field of State and per named update, so that no proof unfolds an update to read a field. -/

namespace Sys2Proof.Machine

/-! ### State.setReg -/

@[simp] theorem State.setReg_mem (s : State) (r : Reg) (v : Byte) : (s.setReg r v).mem = s.mem := rfl
@[simp] theorem State.setReg_x (s : State) (r : Reg) (v : Byte) : (s.setReg r v).x = s.x.set r v := rfl
@[simp] theorem State.setReg_pc (s : State) (r : Reg) (v : Byte) : (s.setReg r v).pc = s.pc := rfl
@[simp] theorem State.setReg_I (s : State) (r : Reg) (v : Byte) : (s.setReg r v).I = s.I := rfl
@[simp] theorem State.setReg_stack (s : State) (r : Reg) (v : Byte) : (s.setReg r v).stack = s.stack := rfl
@[simp] theorem State.setReg_sp (s : State) (r : Reg) (v : Byte) : (s.setReg r v).sp = s.sp := rfl
@[simp] theorem State.setReg_dt (s : State) (r : Reg) (v : Byte) : (s.setReg r v).dt = s.dt := rfl
@[simp] theorem State.setReg_st (s : State) (r : Reg) (v : Byte) : (s.setReg r v).st = s.st := rfl
@[simp] theorem State.setReg_fb (s : State) (r : Reg) (v : Byte) : (s.setReg r v).fb = s.fb := rfl
@[simp] theorem State.setReg_key (s : State) (r : Reg) (v : Byte) : (s.setReg r v).key = s.key := rfl
@[simp] theorem State.setReg_keyprev (s : State) (r : Reg) (v : Byte) : (s.setReg r v).keyprev = s.keyprev := rfl
@[simp] theorem State.setReg_drawRequested (s : State) (r : Reg) (v : Byte) : (s.setReg r v).drawRequested = s.drawRequested := rfl
@[simp] theorem State.setReg_exitRequested (s : State) (r : Reg) (v : Byte) : (s.setReg r v).exitRequested = s.exitRequested := rfl
@[simp] theorem State.setReg_frameStep (s : State) (r : Reg) (v : Byte) : (s.setReg r v).frameStep = s.frameStep := rfl
@[simp] theorem State.setReg_draws (s : State) (r : Reg) (v : Byte) : (s.setReg r v).draws = s.draws := rfl
@[simp] theorem State.setReg_hostIn (s : State) (r : Reg) (v : Byte) : (s.setReg r v).hostIn = s.hostIn := rfl
@[simp] theorem State.setReg_polls (s : State) (r : Reg) (v : Byte) : (s.setReg r v).polls = s.polls := rfl
@[simp] theorem State.setReg_fbOut (s : State) (r : Reg) (v : Byte) : (s.setReg r v).fbOut = s.fbOut := rfl
@[simp] theorem State.setReg_stBeforeTick (s : State) (r : Reg) (v : Byte) : (s.setReg r v).stBeforeTick = s.stBeforeTick := rfl
@[simp] theorem State.setReg_diagOut (s : State) (r : Reg) (v : Byte) : (s.setReg r v).diagOut = s.diagOut := rfl
@[simp] theorem State.setReg_frequency (s : State) (r : Reg) (v : Byte) : (s.setReg r v).frequency = s.frequency := rfl
@[simp] theorem State.setReg_refreshRate (s : State) (r : Reg) (v : Byte) : (s.setReg r v).refreshRate = s.refreshRate := rfl

/-! ### State.raiseFatal -/

@[simp] theorem State.raiseFatal_mem (s : State) (k : Fatal) : (s.raiseFatal k).mem = s.mem := rfl
@[simp] theorem State.raiseFatal_x (s : State) (k : Fatal) : (s.raiseFatal k).x = s.x := rfl
@[simp] theorem State.raiseFatal_pc (s : State) (k : Fatal) : (s.raiseFatal k).pc = s.pc := rfl
@[simp] theorem State.raiseFatal_I (s : State) (k : Fatal) : (s.raiseFatal k).I = s.I := rfl
@[simp] theorem State.raiseFatal_stack (s : State) (k : Fatal) : (s.raiseFatal k).stack = s.stack := rfl
@[simp] theorem State.raiseFatal_sp (s : State) (k : Fatal) : (s.raiseFatal k).sp = s.sp := rfl
@[simp] theorem State.raiseFatal_dt (s : State) (k : Fatal) : (s.raiseFatal k).dt = s.dt := rfl
@[simp] theorem State.raiseFatal_st (s : State) (k : Fatal) : (s.raiseFatal k).st = s.st := rfl
@[simp] theorem State.raiseFatal_fb (s : State) (k : Fatal) : (s.raiseFatal k).fb = s.fb := rfl
@[simp] theorem State.raiseFatal_key (s : State) (k : Fatal) : (s.raiseFatal k).key = s.key := rfl
@[simp] theorem State.raiseFatal_keyprev (s : State) (k : Fatal) : (s.raiseFatal k).keyprev = s.keyprev := rfl
@[simp] theorem State.raiseFatal_drawRequested (s : State) (k : Fatal) : (s.raiseFatal k).drawRequested = s.drawRequested := rfl
@[simp] theorem State.raiseFatal_exitRequested (s : State) (k : Fatal) : (s.raiseFatal k).exitRequested = true := rfl
@[simp] theorem State.raiseFatal_frameStep (s : State) (k : Fatal) : (s.raiseFatal k).frameStep = s.frameStep := rfl
@[simp] theorem State.raiseFatal_draws (s : State) (k : Fatal) : (s.raiseFatal k).draws = s.draws := rfl
@[simp] theorem State.raiseFatal_hostIn (s : State) (k : Fatal) : (s.raiseFatal k).hostIn = s.hostIn := rfl
@[simp] theorem State.raiseFatal_polls (s : State) (k : Fatal) : (s.raiseFatal k).polls = s.polls := rfl
@[simp] theorem State.raiseFatal_fbOut (s : State) (k : Fatal) : (s.raiseFatal k).fbOut = s.fbOut := rfl
@[simp] theorem State.raiseFatal_stBeforeTick (s : State) (k : Fatal) : (s.raiseFatal k).stBeforeTick = s.stBeforeTick := rfl
@[simp] theorem State.raiseFatal_diagOut (s : State) (k : Fatal) : (s.raiseFatal k).diagOut = .fatal k :: s.diagOut := rfl
@[simp] theorem State.raiseFatal_frequency (s : State) (k : Fatal) : (s.raiseFatal k).frequency = s.frequency := rfl
@[simp] theorem State.raiseFatal_refreshRate (s : State) (k : Fatal) : (s.raiseFatal k).refreshRate = s.refreshRate := rfl

/-! ### State.applyOutcome -/

@[simp] theorem State.applyOutcome_advance2_pc (s : State) : (s.applyOutcome .advance2).pc = s.pc + 2 := rfl
@[simp] theorem State.applyOutcome_advance4_pc (s : State) : (s.applyOutcome .advance4).pc = s.pc + 4 := rfl
@[simp] theorem State.applyOutcome_hold (s : State) : s.applyOutcome .hold = s := rfl
@[simp] theorem State.applyOutcome_setPc_pc (s : State) (a : Word) : (s.applyOutcome (.setPc a)).pc = a := rfl
@[simp] theorem State.applyOutcome_mem (s : State) (o : PcOutcome) : (s.applyOutcome o).mem = s.mem := by cases o <;> rfl
@[simp] theorem State.applyOutcome_x (s : State) (o : PcOutcome) : (s.applyOutcome o).x = s.x := by cases o <;> rfl
@[simp] theorem State.applyOutcome_I (s : State) (o : PcOutcome) : (s.applyOutcome o).I = s.I := by cases o <;> rfl
@[simp] theorem State.applyOutcome_stack (s : State) (o : PcOutcome) : (s.applyOutcome o).stack = s.stack := by cases o <;> rfl
@[simp] theorem State.applyOutcome_sp (s : State) (o : PcOutcome) : (s.applyOutcome o).sp = s.sp := by cases o <;> rfl
@[simp] theorem State.applyOutcome_dt (s : State) (o : PcOutcome) : (s.applyOutcome o).dt = s.dt := by cases o <;> rfl
@[simp] theorem State.applyOutcome_st (s : State) (o : PcOutcome) : (s.applyOutcome o).st = s.st := by cases o <;> rfl
@[simp] theorem State.applyOutcome_fb (s : State) (o : PcOutcome) : (s.applyOutcome o).fb = s.fb := by cases o <;> rfl
@[simp] theorem State.applyOutcome_key (s : State) (o : PcOutcome) : (s.applyOutcome o).key = s.key := by cases o <;> rfl
@[simp] theorem State.applyOutcome_keyprev (s : State) (o : PcOutcome) : (s.applyOutcome o).keyprev = s.keyprev := by cases o <;> rfl
@[simp] theorem State.applyOutcome_drawRequested (s : State) (o : PcOutcome) : (s.applyOutcome o).drawRequested = s.drawRequested := by cases o <;> rfl
@[simp] theorem State.applyOutcome_exitRequested (s : State) (o : PcOutcome) : (s.applyOutcome o).exitRequested = s.exitRequested := by cases o <;> rfl
@[simp] theorem State.applyOutcome_frameStep (s : State) (o : PcOutcome) : (s.applyOutcome o).frameStep = s.frameStep := by cases o <;> rfl
@[simp] theorem State.applyOutcome_draws (s : State) (o : PcOutcome) : (s.applyOutcome o).draws = s.draws := by cases o <;> rfl
@[simp] theorem State.applyOutcome_hostIn (s : State) (o : PcOutcome) : (s.applyOutcome o).hostIn = s.hostIn := by cases o <;> rfl
@[simp] theorem State.applyOutcome_polls (s : State) (o : PcOutcome) : (s.applyOutcome o).polls = s.polls := by cases o <;> rfl
@[simp] theorem State.applyOutcome_fbOut (s : State) (o : PcOutcome) : (s.applyOutcome o).fbOut = s.fbOut := by cases o <;> rfl
@[simp] theorem State.applyOutcome_stBeforeTick (s : State) (o : PcOutcome) : (s.applyOutcome o).stBeforeTick = s.stBeforeTick := by cases o <;> rfl
@[simp] theorem State.applyOutcome_diagOut (s : State) (o : PcOutcome) : (s.applyOutcome o).diagOut = s.diagOut := by cases o <;> rfl
@[simp] theorem State.applyOutcome_frequency (s : State) (o : PcOutcome) : (s.applyOutcome o).frequency = s.frequency := by cases o <;> rfl
@[simp] theorem State.applyOutcome_refreshRate (s : State) (o : PcOutcome) : (s.applyOutcome o).refreshRate = s.refreshRate := by cases o <;> rfl

/-! ### State.writeFlagged -/

@[simp] theorem State.writeFlagged_mem (s : State) (x : Reg) (fr : Flagged) : (s.writeFlagged x fr).mem = s.mem := rfl
@[simp] theorem State.writeFlagged_x (s : State) (x : Reg) (fr : Flagged) : (s.writeFlagged x fr).x = (s.x.set 15 (flagValue fr.1)).set x fr.2 := rfl
@[simp] theorem State.writeFlagged_pc (s : State) (x : Reg) (fr : Flagged) : (s.writeFlagged x fr).pc = s.pc := rfl
@[simp] theorem State.writeFlagged_I (s : State) (x : Reg) (fr : Flagged) : (s.writeFlagged x fr).I = s.I := rfl
@[simp] theorem State.writeFlagged_stack (s : State) (x : Reg) (fr : Flagged) : (s.writeFlagged x fr).stack = s.stack := rfl
@[simp] theorem State.writeFlagged_sp (s : State) (x : Reg) (fr : Flagged) : (s.writeFlagged x fr).sp = s.sp := rfl
@[simp] theorem State.writeFlagged_dt (s : State) (x : Reg) (fr : Flagged) : (s.writeFlagged x fr).dt = s.dt := rfl
@[simp] theorem State.writeFlagged_st (s : State) (x : Reg) (fr : Flagged) : (s.writeFlagged x fr).st = s.st := rfl
@[simp] theorem State.writeFlagged_fb (s : State) (x : Reg) (fr : Flagged) : (s.writeFlagged x fr).fb = s.fb := rfl
@[simp] theorem State.writeFlagged_key (s : State) (x : Reg) (fr : Flagged) : (s.writeFlagged x fr).key = s.key := rfl
@[simp] theorem State.writeFlagged_keyprev (s : State) (x : Reg) (fr : Flagged) : (s.writeFlagged x fr).keyprev = s.keyprev := rfl
@[simp] theorem State.writeFlagged_drawRequested (s : State) (x : Reg) (fr : Flagged) : (s.writeFlagged x fr).drawRequested = s.drawRequested := rfl
@[simp] theorem State.writeFlagged_exitRequested (s : State) (x : Reg) (fr : Flagged) : (s.writeFlagged x fr).exitRequested = s.exitRequested := rfl
@[simp] theorem State.writeFlagged_frameStep (s : State) (x : Reg) (fr : Flagged) : (s.writeFlagged x fr).frameStep = s.frameStep := rfl
@[simp] theorem State.writeFlagged_draws (s : State) (x : Reg) (fr : Flagged) : (s.writeFlagged x fr).draws = s.draws := rfl
@[simp] theorem State.writeFlagged_hostIn (s : State) (x : Reg) (fr : Flagged) : (s.writeFlagged x fr).hostIn = s.hostIn := rfl
@[simp] theorem State.writeFlagged_polls (s : State) (x : Reg) (fr : Flagged) : (s.writeFlagged x fr).polls = s.polls := rfl
@[simp] theorem State.writeFlagged_fbOut (s : State) (x : Reg) (fr : Flagged) : (s.writeFlagged x fr).fbOut = s.fbOut := rfl
@[simp] theorem State.writeFlagged_stBeforeTick (s : State) (x : Reg) (fr : Flagged) : (s.writeFlagged x fr).stBeforeTick = s.stBeforeTick := rfl
@[simp] theorem State.writeFlagged_diagOut (s : State) (x : Reg) (fr : Flagged) : (s.writeFlagged x fr).diagOut = s.diagOut := rfl
@[simp] theorem State.writeFlagged_frequency (s : State) (x : Reg) (fr : Flagged) : (s.writeFlagged x fr).frequency = s.frequency := rfl
@[simp] theorem State.writeFlagged_refreshRate (s : State) (x : Reg) (fr : Flagged) : (s.writeFlagged x fr).refreshRate = s.refreshRate := rfl

/-! ### State.latchCopy -/

@[simp] theorem State.latchCopy_mem (s : State) : (s.latchCopy).mem = s.mem := rfl
@[simp] theorem State.latchCopy_x (s : State) : (s.latchCopy).x = s.x := rfl
@[simp] theorem State.latchCopy_pc (s : State) : (s.latchCopy).pc = s.pc := rfl
@[simp] theorem State.latchCopy_I (s : State) : (s.latchCopy).I = s.I := rfl
@[simp] theorem State.latchCopy_stack (s : State) : (s.latchCopy).stack = s.stack := rfl
@[simp] theorem State.latchCopy_sp (s : State) : (s.latchCopy).sp = s.sp := rfl
@[simp] theorem State.latchCopy_dt (s : State) : (s.latchCopy).dt = s.dt := rfl
@[simp] theorem State.latchCopy_st (s : State) : (s.latchCopy).st = s.st := rfl
@[simp] theorem State.latchCopy_fb (s : State) : (s.latchCopy).fb = s.fb := rfl
@[simp] theorem State.latchCopy_key (s : State) : (s.latchCopy).key = s.key := rfl
@[simp] theorem State.latchCopy_keyprev (s : State) : (s.latchCopy).keyprev = s.key := rfl
@[simp] theorem State.latchCopy_drawRequested (s : State) : (s.latchCopy).drawRequested = s.drawRequested := rfl
@[simp] theorem State.latchCopy_exitRequested (s : State) : (s.latchCopy).exitRequested = s.exitRequested := rfl
@[simp] theorem State.latchCopy_frameStep (s : State) : (s.latchCopy).frameStep = s.frameStep := rfl
@[simp] theorem State.latchCopy_draws (s : State) : (s.latchCopy).draws = s.draws := rfl
@[simp] theorem State.latchCopy_hostIn (s : State) : (s.latchCopy).hostIn = s.hostIn := rfl
@[simp] theorem State.latchCopy_polls (s : State) : (s.latchCopy).polls = s.polls := rfl
@[simp] theorem State.latchCopy_fbOut (s : State) : (s.latchCopy).fbOut = s.fbOut := rfl
@[simp] theorem State.latchCopy_stBeforeTick (s : State) : (s.latchCopy).stBeforeTick = s.stBeforeTick := rfl
@[simp] theorem State.latchCopy_diagOut (s : State) : (s.latchCopy).diagOut = s.diagOut := rfl
@[simp] theorem State.latchCopy_frequency (s : State) : (s.latchCopy).frequency = s.frequency := rfl
@[simp] theorem State.latchCopy_refreshRate (s : State) : (s.latchCopy).refreshRate = s.refreshRate := rfl

/-! ### State.renderHandOver -/

@[simp] theorem State.renderHandOver_mem (s : State) : (s.renderHandOver).mem = s.mem := by
  unfold State.renderHandOver; split <;> simp_all
@[simp] theorem State.renderHandOver_x (s : State) : (s.renderHandOver).x = s.x := by
  unfold State.renderHandOver; split <;> simp_all
@[simp] theorem State.renderHandOver_pc (s : State) : (s.renderHandOver).pc = s.pc := by
  unfold State.renderHandOver; split <;> simp_all
@[simp] theorem State.renderHandOver_I (s : State) : (s.renderHandOver).I = s.I := by
  unfold State.renderHandOver; split <;> simp_all
@[simp] theorem State.renderHandOver_stack (s : State) : (s.renderHandOver).stack = s.stack := by
  unfold State.renderHandOver; split <;> simp_all
@[simp] theorem State.renderHandOver_sp (s : State) : (s.renderHandOver).sp = s.sp := by
  unfold State.renderHandOver; split <;> simp_all
@[simp] theorem State.renderHandOver_dt (s : State) : (s.renderHandOver).dt = s.dt := by
  unfold State.renderHandOver; split <;> simp_all
@[simp] theorem State.renderHandOver_st (s : State) : (s.renderHandOver).st = s.st := by
  unfold State.renderHandOver; split <;> simp_all
@[simp] theorem State.renderHandOver_fb (s : State) : (s.renderHandOver).fb = s.fb := by
  unfold State.renderHandOver; split <;> simp_all
@[simp] theorem State.renderHandOver_key (s : State) : (s.renderHandOver).key = s.key := by
  unfold State.renderHandOver; split <;> simp_all
@[simp] theorem State.renderHandOver_keyprev (s : State) : (s.renderHandOver).keyprev = s.keyprev := by
  unfold State.renderHandOver; split <;> simp_all
@[simp] theorem State.renderHandOver_drawRequested (s : State) : (s.renderHandOver).drawRequested = false := by
  unfold State.renderHandOver; split <;> simp_all
@[simp] theorem State.renderHandOver_exitRequested (s : State) : (s.renderHandOver).exitRequested = s.exitRequested := by
  unfold State.renderHandOver; split <;> simp_all
@[simp] theorem State.renderHandOver_frameStep (s : State) : (s.renderHandOver).frameStep = s.frameStep := by
  unfold State.renderHandOver; split <;> simp_all
@[simp] theorem State.renderHandOver_draws (s : State) : (s.renderHandOver).draws = s.draws := by
  unfold State.renderHandOver; split <;> simp_all
@[simp] theorem State.renderHandOver_hostIn (s : State) : (s.renderHandOver).hostIn = s.hostIn := by
  unfold State.renderHandOver; split <;> simp_all
@[simp] theorem State.renderHandOver_polls (s : State) : (s.renderHandOver).polls = s.polls := by
  unfold State.renderHandOver; split <;> simp_all
@[simp] theorem State.renderHandOver_fbOut (s : State) : (s.renderHandOver).fbOut = if s.drawRequested then some s.fb else s.fbOut := by
  unfold State.renderHandOver; split <;> simp_all
@[simp] theorem State.renderHandOver_stBeforeTick (s : State) : (s.renderHandOver).stBeforeTick = s.stBeforeTick := by
  unfold State.renderHandOver; split <;> simp_all
@[simp] theorem State.renderHandOver_diagOut (s : State) : (s.renderHandOver).diagOut = s.diagOut := by
  unfold State.renderHandOver; split <;> simp_all
@[simp] theorem State.renderHandOver_frequency (s : State) : (s.renderHandOver).frequency = s.frequency := by
  unfold State.renderHandOver; split <;> simp_all
@[simp] theorem State.renderHandOver_refreshRate (s : State) : (s.renderHandOver).refreshRate = s.refreshRate := by
  unfold State.renderHandOver; split <;> simp_all

/-! ### State.recordTone -/

@[simp] theorem State.recordTone_mem (s : State) : (s.recordTone).mem = s.mem := rfl
@[simp] theorem State.recordTone_x (s : State) : (s.recordTone).x = s.x := rfl
@[simp] theorem State.recordTone_pc (s : State) : (s.recordTone).pc = s.pc := rfl
@[simp] theorem State.recordTone_I (s : State) : (s.recordTone).I = s.I := rfl
@[simp] theorem State.recordTone_stack (s : State) : (s.recordTone).stack = s.stack := rfl
@[simp] theorem State.recordTone_sp (s : State) : (s.recordTone).sp = s.sp := rfl
@[simp] theorem State.recordTone_dt (s : State) : (s.recordTone).dt = s.dt := rfl
@[simp] theorem State.recordTone_st (s : State) : (s.recordTone).st = s.st := rfl
@[simp] theorem State.recordTone_fb (s : State) : (s.recordTone).fb = s.fb := rfl
@[simp] theorem State.recordTone_key (s : State) : (s.recordTone).key = s.key := rfl
@[simp] theorem State.recordTone_keyprev (s : State) : (s.recordTone).keyprev = s.keyprev := rfl
@[simp] theorem State.recordTone_drawRequested (s : State) : (s.recordTone).drawRequested = s.drawRequested := rfl
@[simp] theorem State.recordTone_exitRequested (s : State) : (s.recordTone).exitRequested = s.exitRequested := rfl
@[simp] theorem State.recordTone_frameStep (s : State) : (s.recordTone).frameStep = s.frameStep := rfl
@[simp] theorem State.recordTone_draws (s : State) : (s.recordTone).draws = s.draws := rfl
@[simp] theorem State.recordTone_hostIn (s : State) : (s.recordTone).hostIn = s.hostIn := rfl
@[simp] theorem State.recordTone_polls (s : State) : (s.recordTone).polls = s.polls := rfl
@[simp] theorem State.recordTone_fbOut (s : State) : (s.recordTone).fbOut = s.fbOut := rfl
@[simp] theorem State.recordTone_stBeforeTick (s : State) : (s.recordTone).stBeforeTick = s.st := rfl
@[simp] theorem State.recordTone_diagOut (s : State) : (s.recordTone).diagOut = s.diagOut := rfl
@[simp] theorem State.recordTone_frequency (s : State) : (s.recordTone).frequency = s.frequency := rfl
@[simp] theorem State.recordTone_refreshRate (s : State) : (s.recordTone).refreshRate = s.refreshRate := rfl

/-! ### State.tickTimers -/

@[simp] theorem State.tickTimers_mem (s : State) : (s.tickTimers).mem = s.mem := rfl
@[simp] theorem State.tickTimers_x (s : State) : (s.tickTimers).x = s.x := rfl
@[simp] theorem State.tickTimers_pc (s : State) : (s.tickTimers).pc = s.pc := rfl
@[simp] theorem State.tickTimers_I (s : State) : (s.tickTimers).I = s.I := rfl
@[simp] theorem State.tickTimers_stack (s : State) : (s.tickTimers).stack = s.stack := rfl
@[simp] theorem State.tickTimers_sp (s : State) : (s.tickTimers).sp = s.sp := rfl
@[simp] theorem State.tickTimers_dt (s : State) : (s.tickTimers).dt = tickTimer s.dt := rfl
@[simp] theorem State.tickTimers_st (s : State) : (s.tickTimers).st = tickTimer s.st := rfl
@[simp] theorem State.tickTimers_fb (s : State) : (s.tickTimers).fb = s.fb := rfl
@[simp] theorem State.tickTimers_key (s : State) : (s.tickTimers).key = s.key := rfl
@[simp] theorem State.tickTimers_keyprev (s : State) : (s.tickTimers).keyprev = s.keyprev := rfl
@[simp] theorem State.tickTimers_drawRequested (s : State) : (s.tickTimers).drawRequested = s.drawRequested := rfl
@[simp] theorem State.tickTimers_exitRequested (s : State) : (s.tickTimers).exitRequested = s.exitRequested := rfl
@[simp] theorem State.tickTimers_frameStep (s : State) : (s.tickTimers).frameStep = s.frameStep := rfl
@[simp] theorem State.tickTimers_draws (s : State) : (s.tickTimers).draws = s.draws := rfl
@[simp] theorem State.tickTimers_hostIn (s : State) : (s.tickTimers).hostIn = s.hostIn := rfl
@[simp] theorem State.tickTimers_polls (s : State) : (s.tickTimers).polls = s.polls := rfl
@[simp] theorem State.tickTimers_fbOut (s : State) : (s.tickTimers).fbOut = s.fbOut := rfl
@[simp] theorem State.tickTimers_stBeforeTick (s : State) : (s.tickTimers).stBeforeTick = s.stBeforeTick := rfl
@[simp] theorem State.tickTimers_diagOut (s : State) : (s.tickTimers).diagOut = s.diagOut := rfl
@[simp] theorem State.tickTimers_frequency (s : State) : (s.tickTimers).frequency = s.frequency := rfl
@[simp] theorem State.tickTimers_refreshRate (s : State) : (s.tickTimers).refreshRate = s.refreshRate := rfl

/-! ### State.dropSample -/

@[simp] theorem State.dropSample_mem (s : State) : (s.dropSample).mem = s.mem := by
  unfold State.dropSample; split <;> simp_all
@[simp] theorem State.dropSample_x (s : State) : (s.dropSample).x = s.x := by
  unfold State.dropSample; split <;> simp_all
@[simp] theorem State.dropSample_pc (s : State) : (s.dropSample).pc = s.pc := by
  unfold State.dropSample; split <;> simp_all
@[simp] theorem State.dropSample_I (s : State) : (s.dropSample).I = s.I := by
  unfold State.dropSample; split <;> simp_all
@[simp] theorem State.dropSample_stack (s : State) : (s.dropSample).stack = s.stack := by
  unfold State.dropSample; split <;> simp_all
@[simp] theorem State.dropSample_sp (s : State) : (s.dropSample).sp = s.sp := by
  unfold State.dropSample; split <;> simp_all
@[simp] theorem State.dropSample_dt (s : State) : (s.dropSample).dt = s.dt := by
  unfold State.dropSample; split <;> simp_all
@[simp] theorem State.dropSample_st (s : State) : (s.dropSample).st = s.st := by
  unfold State.dropSample; split <;> simp_all
@[simp] theorem State.dropSample_fb (s : State) : (s.dropSample).fb = s.fb := by
  unfold State.dropSample; split <;> simp_all
@[simp] theorem State.dropSample_key (s : State) : (s.dropSample).key = s.key := by
  unfold State.dropSample; split <;> simp_all
@[simp] theorem State.dropSample_keyprev (s : State) : (s.dropSample).keyprev = s.keyprev := by
  unfold State.dropSample; split <;> simp_all
@[simp] theorem State.dropSample_drawRequested (s : State) : (s.dropSample).drawRequested = s.drawRequested := by
  unfold State.dropSample; split <;> simp_all
@[simp] theorem State.dropSample_exitRequested (s : State) : (s.dropSample).exitRequested = s.exitRequested := by
  unfold State.dropSample; split <;> simp_all
@[simp] theorem State.dropSample_frameStep (s : State) : (s.dropSample).frameStep = s.frameStep := by
  unfold State.dropSample; split <;> simp_all
@[simp] theorem State.dropSample_draws (s : State) : (s.dropSample).draws = s.draws := by
  unfold State.dropSample; split <;> simp_all
@[simp] theorem State.dropSample_hostIn (s : State) : (s.dropSample).hostIn = s.hostIn.tail := by
  unfold State.dropSample; split <;> simp_all
@[simp] theorem State.dropSample_polls (s : State) : (s.dropSample).polls = if s.hostIn = [] then s.polls + 1 else s.polls := by
  unfold State.dropSample; split <;> simp_all
@[simp] theorem State.dropSample_fbOut (s : State) : (s.dropSample).fbOut = s.fbOut := by
  unfold State.dropSample; split <;> simp_all
@[simp] theorem State.dropSample_stBeforeTick (s : State) : (s.dropSample).stBeforeTick = s.stBeforeTick := by
  unfold State.dropSample; split <;> simp_all
@[simp] theorem State.dropSample_diagOut (s : State) : (s.dropSample).diagOut = s.diagOut := by
  unfold State.dropSample; split <;> simp_all
@[simp] theorem State.dropSample_frequency (s : State) : (s.dropSample).frequency = s.frequency := by
  unfold State.dropSample; split <;> simp_all
@[simp] theorem State.dropSample_refreshRate (s : State) : (s.dropSample).refreshRate = s.refreshRate := by
  unfold State.dropSample; split <;> simp_all

/-! ### State.pollInput -/

@[simp] theorem State.pollInput_mem (s : State) : (s.pollInput).mem = s.mem := by
  simp [State.pollInput]
@[simp] theorem State.pollInput_x (s : State) : (s.pollInput).x = s.x := by
  simp [State.pollInput]
@[simp] theorem State.pollInput_pc (s : State) : (s.pollInput).pc = s.pc := by
  simp [State.pollInput]
@[simp] theorem State.pollInput_I (s : State) : (s.pollInput).I = s.I := by
  simp [State.pollInput]
@[simp] theorem State.pollInput_stack (s : State) : (s.pollInput).stack = s.stack := by
  simp [State.pollInput]
@[simp] theorem State.pollInput_sp (s : State) : (s.pollInput).sp = s.sp := by
  simp [State.pollInput]
@[simp] theorem State.pollInput_dt (s : State) : (s.pollInput).dt = s.dt := by
  simp [State.pollInput]
@[simp] theorem State.pollInput_st (s : State) : (s.pollInput).st = s.st := by
  simp [State.pollInput]
@[simp] theorem State.pollInput_fb (s : State) : (s.pollInput).fb = s.fb := by
  simp [State.pollInput]
@[simp] theorem State.pollInput_key (s : State) : (s.pollInput).key = s.nextSample.keys := by
  simp [State.pollInput]
@[simp] theorem State.pollInput_keyprev (s : State) : (s.pollInput).keyprev = s.keyprev := by
  simp [State.pollInput]
@[simp] theorem State.pollInput_drawRequested (s : State) : (s.pollInput).drawRequested = s.drawRequested := by
  simp [State.pollInput]
@[simp] theorem State.pollInput_exitRequested (s : State) : (s.pollInput).exitRequested = (s.exitRequested || s.nextSample.quit) := by
  simp [State.pollInput]
@[simp] theorem State.pollInput_frameStep (s : State) : (s.pollInput).frameStep = s.frameStep := by
  simp [State.pollInput]
@[simp] theorem State.pollInput_draws (s : State) : (s.pollInput).draws = s.draws := by
  simp [State.pollInput]
@[simp] theorem State.pollInput_hostIn (s : State) : (s.pollInput).hostIn = s.hostIn.tail := by
  simp [State.pollInput]
@[simp] theorem State.pollInput_polls (s : State) : (s.pollInput).polls = if s.hostIn = [] then s.polls + 1 else s.polls := by
  simp [State.pollInput]
@[simp] theorem State.pollInput_fbOut (s : State) : (s.pollInput).fbOut = s.fbOut := by
  simp [State.pollInput]
@[simp] theorem State.pollInput_stBeforeTick (s : State) : (s.pollInput).stBeforeTick = s.stBeforeTick := by
  simp [State.pollInput]
@[simp] theorem State.pollInput_diagOut (s : State) : (s.pollInput).diagOut = s.diagOut := by
  simp [State.pollInput]
@[simp] theorem State.pollInput_frequency (s : State) : (s.pollInput).frequency = s.frequency := by
  simp [State.pollInput]
@[simp] theorem State.pollInput_refreshRate (s : State) : (s.pollInput).refreshRate = s.refreshRate := by
  simp [State.pollInput]

/-! ### State.frameBoundary -/

@[simp] theorem State.frameBoundary_mem (s : State) : (s.frameBoundary).mem = s.mem := by
  simp [State.frameBoundary]
@[simp] theorem State.frameBoundary_x (s : State) : (s.frameBoundary).x = s.x := by
  simp [State.frameBoundary]
@[simp] theorem State.frameBoundary_pc (s : State) : (s.frameBoundary).pc = s.pc := by
  simp [State.frameBoundary]
@[simp] theorem State.frameBoundary_I (s : State) : (s.frameBoundary).I = s.I := by
  simp [State.frameBoundary]
@[simp] theorem State.frameBoundary_stack (s : State) : (s.frameBoundary).stack = s.stack := by
  simp [State.frameBoundary]
@[simp] theorem State.frameBoundary_sp (s : State) : (s.frameBoundary).sp = s.sp := by
  simp [State.frameBoundary]
@[simp] theorem State.frameBoundary_dt (s : State) : (s.frameBoundary).dt = tickTimer s.dt := by
  simp [State.frameBoundary]
@[simp] theorem State.frameBoundary_st (s : State) : (s.frameBoundary).st = tickTimer s.st := by
  simp [State.frameBoundary]
@[simp] theorem State.frameBoundary_fb (s : State) : (s.frameBoundary).fb = s.fb := by
  simp [State.frameBoundary]
@[simp] theorem State.frameBoundary_key (s : State) : (s.frameBoundary).key = s.nextSample.keys := by
  simp [State.frameBoundary, State.nextSample]
@[simp] theorem State.frameBoundary_keyprev (s : State) : (s.frameBoundary).keyprev = s.key := by
  simp [State.frameBoundary]
@[simp] theorem State.frameBoundary_drawRequested (s : State) : (s.frameBoundary).drawRequested = false := by
  simp [State.frameBoundary]
@[simp] theorem State.frameBoundary_exitRequested (s : State) : (s.frameBoundary).exitRequested = (s.exitRequested || s.nextSample.quit) := by
  simp [State.frameBoundary, State.nextSample]
@[simp] theorem State.frameBoundary_frameStep (s : State) : (s.frameBoundary).frameStep = s.frameStep := by
  simp [State.frameBoundary]
@[simp] theorem State.frameBoundary_draws (s : State) : (s.frameBoundary).draws = s.draws := by
  simp [State.frameBoundary]
@[simp] theorem State.frameBoundary_hostIn (s : State) : (s.frameBoundary).hostIn = s.hostIn.tail := by
  simp [State.frameBoundary]
@[simp] theorem State.frameBoundary_polls (s : State) : (s.frameBoundary).polls = if s.hostIn = [] then s.polls + 1 else s.polls := by
  simp [State.frameBoundary]
@[simp] theorem State.frameBoundary_fbOut (s : State) : (s.frameBoundary).fbOut = if s.drawRequested then some s.fb else s.fbOut := by
  simp only [State.frameBoundary, State.pollInput_fbOut, State.tickTimers_fbOut, State.recordTone_fbOut,
    State.renderHandOver_fbOut]
  rfl
@[simp] theorem State.frameBoundary_stBeforeTick (s : State) : (s.frameBoundary).stBeforeTick = s.st := by
  simp [State.frameBoundary]
@[simp] theorem State.frameBoundary_diagOut (s : State) : (s.frameBoundary).diagOut = s.diagOut := by
  simp [State.frameBoundary]
@[simp] theorem State.frameBoundary_frequency (s : State) : (s.frameBoundary).frequency = s.frequency := by
  simp [State.frameBoundary]
@[simp] theorem State.frameBoundary_refreshRate (s : State) : (s.frameBoundary).refreshRate = s.refreshRate := by
  simp [State.frameBoundary]

/-! ### State.setRegs -/

@[simp] theorem State.setRegs_mem (s : State) (r : Nat) (vs : List Byte) : (s.setRegs r vs).mem = s.mem := by
  induction vs generalizing s r <;> simp_all [State.setRegs]
@[simp] theorem State.setRegs_pc (s : State) (r : Nat) (vs : List Byte) : (s.setRegs r vs).pc = s.pc := by
  induction vs generalizing s r <;> simp_all [State.setRegs]
@[simp] theorem State.setRegs_I (s : State) (r : Nat) (vs : List Byte) : (s.setRegs r vs).I = s.I := by
  induction vs generalizing s r <;> simp_all [State.setRegs]
@[simp] theorem State.setRegs_stack (s : State) (r : Nat) (vs : List Byte) : (s.setRegs r vs).stack = s.stack := by
  induction vs generalizing s r <;> simp_all [State.setRegs]
@[simp] theorem State.setRegs_sp (s : State) (r : Nat) (vs : List Byte) : (s.setRegs r vs).sp = s.sp := by
  induction vs generalizing s r <;> simp_all [State.setRegs]
@[simp] theorem State.setRegs_dt (s : State) (r : Nat) (vs : List Byte) : (s.setRegs r vs).dt = s.dt := by
  induction vs generalizing s r <;> simp_all [State.setRegs]
@[simp] theorem State.setRegs_st (s : State) (r : Nat) (vs : List Byte) : (s.setRegs r vs).st = s.st := by
  induction vs generalizing s r <;> simp_all [State.setRegs]
@[simp] theorem State.setRegs_fb (s : State) (r : Nat) (vs : List Byte) : (s.setRegs r vs).fb = s.fb := by
  induction vs generalizing s r <;> simp_all [State.setRegs]
@[simp] theorem State.setRegs_key (s : State) (r : Nat) (vs : List Byte) : (s.setRegs r vs).key = s.key := by
  induction vs generalizing s r <;> simp_all [State.setRegs]
@[simp] theorem State.setRegs_keyprev (s : State) (r : Nat) (vs : List Byte) : (s.setRegs r vs).keyprev = s.keyprev := by
  induction vs generalizing s r <;> simp_all [State.setRegs]
@[simp] theorem State.setRegs_drawRequested (s : State) (r : Nat) (vs : List Byte) : (s.setRegs r vs).drawRequested = s.drawRequested := by
  induction vs generalizing s r <;> simp_all [State.setRegs]
@[simp] theorem State.setRegs_exitRequested (s : State) (r : Nat) (vs : List Byte) : (s.setRegs r vs).exitRequested = s.exitRequested := by
  induction vs generalizing s r <;> simp_all [State.setRegs]
@[simp] theorem State.setRegs_frameStep (s : State) (r : Nat) (vs : List Byte) : (s.setRegs r vs).frameStep = s.frameStep := by
  induction vs generalizing s r <;> simp_all [State.setRegs]
@[simp] theorem State.setRegs_draws (s : State) (r : Nat) (vs : List Byte) : (s.setRegs r vs).draws = s.draws := by
  induction vs generalizing s r <;> simp_all [State.setRegs]
@[simp] theorem State.setRegs_hostIn (s : State) (r : Nat) (vs : List Byte) : (s.setRegs r vs).hostIn = s.hostIn := by
  induction vs generalizing s r <;> simp_all [State.setRegs]
@[simp] theorem State.setRegs_polls (s : State) (r : Nat) (vs : List Byte) : (s.setRegs r vs).polls = s.polls := by
  induction vs generalizing s r <;> simp_all [State.setRegs]
@[simp] theorem State.setRegs_fbOut (s : State) (r : Nat) (vs : List Byte) : (s.setRegs r vs).fbOut = s.fbOut := by
  induction vs generalizing s r <;> simp_all [State.setRegs]
@[simp] theorem State.setRegs_stBeforeTick (s : State) (r : Nat) (vs : List Byte) : (s.setRegs r vs).stBeforeTick = s.stBeforeTick := by
  induction vs generalizing s r <;> simp_all [State.setRegs]
@[simp] theorem State.setRegs_diagOut (s : State) (r : Nat) (vs : List Byte) : (s.setRegs r vs).diagOut = s.diagOut := by
  induction vs generalizing s r <;> simp_all [State.setRegs]
@[simp] theorem State.setRegs_frequency (s : State) (r : Nat) (vs : List Byte) : (s.setRegs r vs).frequency = s.frequency := by
  induction vs generalizing s r <;> simp_all [State.setRegs]
@[simp] theorem State.setRegs_refreshRate (s : State) (r : Nat) (vs : List Byte) : (s.setRegs r vs).refreshRate = s.refreshRate := by
  induction vs generalizing s r <;> simp_all [State.setRegs]

/-! ### State.withFetchWord -/

@[simp] theorem State.withFetchWord_pc (s : State) (nbits w : Nat) : (s.withFetchWord nbits w).pc = s.pc := rfl
@[simp] theorem State.withFetchWord_exitRequested (s : State) (nbits w : Nat) :
    (s.withFetchWord nbits w).exitRequested = s.exitRequested := rfl
@[simp] theorem State.withFetchWord_mem (s : State) (nbits w : Nat) : (s.withFetchWord nbits w).mem =
    s.mem.setAll s.pc.toNat [highByte (tableWord nbits w), lowByte (tableWord nbits w)] := rfl

end Sys2Proof.Machine
end

