-- ==== Sys2Proof/Laws/Ops.lean ====
section
/-! SUPPORT. What each shared operation does, said once: registers, memory ranges, the call stack, pixels, the end of a step, a
step. -/

namespace Sys2Proof.Machine

/-! ### Registers -/

@[simp] theorem State.reg_setReg (s : State) (r q : Reg) (v : Byte) :
    (s.setReg r v).reg q = if r = q then v else s.reg q := by
  simp [State.reg, Vector.getElem_set, Fin.ext_iff]

@[simp] theorem State.reg_applyOutcome (s : State) (o : PcOutcome) (r : Reg) : (s.applyOutcome o).reg r = s.reg r := by
  simp [State.reg]

@[simp] theorem State.reg_raiseFatal (s : State) (k : Fatal) (r : Reg) : (s.raiseFatal k).reg r = s.reg r := rfl

/-- The flag is written first, the result second (R100). -/
@[simp] theorem State.reg_writeFlagged (s : State) (x q : Reg) (fr : Flagged) :
    (s.writeFlagged x fr).reg q = if x = q then fr.2 else if 15 = q then flagValue fr.1 else s.reg q := by
  simp [State.writeFlagged]

/-- A run of register writes inside the file. -/
theorem State.reg_setRegs (s : State) (k : Nat) (vs : List Byte) (h : k + vs.length ≤ 16) (r : Reg) :
    (s.setRegs k vs).reg r = if k ≤ r.val ∧ r.val < k + vs.length then vs.getD (r.val - k) 0 else s.reg r := by
  induction vs generalizing s k with
  | nil => simp [State.setRegs, show ¬ (k ≤ r.val ∧ r.val < k) by omega]
  | cons v vs ih =>
    simp only [List.length_cons] at h
    rw [State.setRegs, ih _ _ (by omega), State.reg_setReg]
    have hk : (Fin.ofNat 16 k = r) ↔ k = r.val := by simp [Fin.ext_iff, Fin.ofNat, Nat.mod_eq_of_lt (show k < 16 by omega)]
    by_cases e : k = r.val
    · simp [e]
    · by_cases h' : k + 1 ≤ r.val ∧ r.val < k + 1 + vs.length
      · rw [if_pos h', if_pos (by simp only [List.length_cons]; omega), show r.val - k = (r.val - (k + 1)) + 1 by omega,
          List.getD_cons_succ]
      · rw [if_neg h', if_neg (by rw [hk]; exact e), if_neg (by simp only [List.length_cons]; omega)]

@[simp] theorem State.length_regs (s : State) (n : Nat) : (s.regs n).length = n := by simp [State.regs]

theorem State.getD_regs (s : State) {n k : Nat} (h : k < n) : (s.regs n).getD k 0 = s.reg (Fin.ofNat 16 k) := by
  simp [State.regs, List.getD_eq_getElem?_getD, h]

/-! ### Memory -/

/-- A byte depends on memory alone. -/
theorem State.byteAt_congr {s t : State} (h : t.mem = s.mem) (a : Nat) : t.byteAt a = s.byteAt a := by
  simp [State.byteAt, h]

@[simp] theorem State.length_bytesAt (s : State) (base n : Nat) : (s.bytesAt base n).length = n := by simp [State.bytesAt]

theorem State.getD_bytesAt (s : State) (base : Nat) {n k : Nat} (h : k < n) :
    (s.bytesAt base n).getD k 0 = s.byteAt (base + k) := by
  simp [State.bytesAt, List.getD_eq_getElem?_getD, h]

/-- The range test of R47. -/
theorem rangeOutside_iff (base n : Nat) : rangeOutside base n = true ↔ 1 ≤ n ∧ 0x1000 < base + n := by
  simp [rangeOutside]

/-- A load answers the bytes of its range or the bounds error, by the range alone. -/
theorem State.loadBytes_cases (s : State) (base n : Nat) :
    (1 ≤ n ∧ 0x1000 < base + n ∧ s.loadBytes base n = .error (.memoryBounds base)) ∨
    ((n = 0 ∨ base + n ≤ 0x1000) ∧ s.loadBytes base n = .ok (s.bytesAt base n)) := by
  unfold State.loadBytes
  by_cases h : rangeOutside base n = true
  · obtain ⟨h₁, h₂⟩ := (rangeOutside_iff _ _).1 h
    exact .inl ⟨h₁, h₂, if_pos h⟩
  · refine .inr ⟨?_, if_neg h⟩
    rw [rangeOutside_iff] at h
    omega

/-- A store answers the state with all its bytes written or the bounds error, by the range alone. -/
theorem State.storeBytes_cases (s : State) (base : Nat) (vs : List Byte) :
    (1 ≤ vs.length ∧ 0x1000 < base + vs.length ∧ s.storeBytes base vs = .error (.memoryBounds base)) ∨
    ((vs.length = 0 ∨ base + vs.length ≤ 0x1000) ∧
      s.storeBytes base vs = .ok { s with mem := s.mem.setAll base vs }) := by
  unfold State.storeBytes
  by_cases h : rangeOutside base vs.length = true
  · obtain ⟨h₁, h₂⟩ := (rangeOutside_iff _ _).1 h
    exact .inl ⟨h₁, h₂, if_pos h⟩
  · refine .inr ⟨?_, if_neg h⟩
    rw [rangeOutside_iff] at h
    omega

/-- A fetch inside memory answers the two bytes, the first as the high byte (R43). -/
theorem State.fetch_of_le (s : State) (h : s.pc.toNat ≤ 0xFFE) :
    s.fetch = .ok (wordOfBytes (s.byteAt s.pc.toNat) (s.byteAt (s.pc.toNat + 1))) := by
  simp [State.fetch, State.memRead, show s.pc.toNat < 4096 by omega, show s.pc.toNat + 1 < 4096 by omega]

/-! ### The call stack -/

theorem State.push_of_lt (s : State) (h : s.sp.val < 16) :
    s.push = .ok { s with stack := s.stack.set s.sp.val s.pc h, sp := ⟨s.sp.val + 1, Nat.succ_lt_succ h⟩ } := by
  simp [State.push, h]

theorem State.push_of_full (s : State) (h : s.sp.val = 16) : s.push = .error (.stackOverflow s.pc) := by
  simp [State.push, h]

theorem State.pop_of_empty (s : State) (h : s.sp.val = 0) : s.pop = .error (.stackUnderflow s.pc) := by
  unfold State.pop
  split
  · rfl
  · simp_all

theorem State.pop_of_succ (s : State) {n : Nat} (h : s.sp.val = n + 1) :
    s.pop = .ok ({ s with sp := ⟨n, by omega⟩ }, s.stack[n]'(by omega)) := by
  unfold State.pop
  split
  · rename_i e
    simp [e] at h
  · rename_i m hm e
    obtain rfl : m = n := by simpa [e] using h
    rfl

/-! ### Pixels -/

@[simp] theorem Framebuffer.pixel_clear (c : Fin 64) (r : Fin 32) : Framebuffer.clear.pixel c r = false := by
  simp [Framebuffer.pixel, Framebuffer.clear]

/-- An exclusive or of one pixel changes that pixel alone. -/
theorem Framebuffer.pixel_xorPixel (fb : Framebuffer) (c c' : Fin 64) (r r' : Fin 32) (b : Bool) :
    (fb.xorPixel c r b).pixel c' r' = (fb.pixel c' r' ^^ (b && decide (c = c') && decide (r = r'))) := by
  unfold Framebuffer.xorPixel Framebuffer.pixel
  cases b
  · simp
  · by_cases hr : r = r'
    · subst hr
      simp [Fin.ext_iff, eq_comm]
    · have : ¬ r.val = r'.val := fun e => hr (Fin.ext e)
      simp [this, hr]

/-! ### Frames -/

/-- Fewer parts may be claimed unchanged. -/
theorem Keeps.mono {a b : List Part} {s t : State} (h : Keeps a s t) (hab : a ⊆ b) : Keeps b s t :=
  fun p hp => h p fun ha => hp (hab ha)

theorem Part.Same.refl (p : Part) (s : State) : p.Same s s := by cases p <;> simp [Part.Same]

theorem Part.Same.trans {p : Part} {s t u : State} (h : p.Same s t) (h' : p.Same t u) : p.Same s u := by
  cases p <;> simp_all [Part.Same]

theorem Keeps.trans {a : List Part} {s t u : State} (h : Keeps a s t) (h' : Keeps a t u) : Keeps a s u :=
  fun p hp => (h p hp).trans (h' p hp)

/-- An outcome changes `pc` alone. -/
theorem keeps_applyOutcome (s : State) (o : PcOutcome) : Keeps [.pc] s (s.applyOutcome o) := by
  intro p hp
  cases p <;> simp_all [Part.Same, State.byteAt, State.pixel]

/-- A register write changes the registers alone. -/
theorem keeps_setReg (s : State) (r : Reg) (v : Byte) : Keeps [.x] s (s.setReg r v) := by
  intro p hp
  cases p <;> simp_all [Part.Same, State.byteAt, State.pixel]

theorem keeps_setRegs (s : State) (r : Nat) (vs : List Byte) : Keeps [.x] s (s.setRegs r vs) := by
  intro p hp
  cases p <;> simp_all [Part.Same, State.byteAt, State.pixel]

/-- A fatal condition changes `exit_requested` and the report alone (R151). -/
theorem keeps_raiseFatal (s : State) (k : Fatal) : Keeps fatalParts s (s.raiseFatal k) := by
  intro p hp
  cases p <;> simp_all [Part.Same, fatalParts, State.byteAt, State.pixel]

/-! ### The end of a step -/

/-- CheckPc passes, or raises the range error, or raises the alignment error; the range test comes first (R82). -/
theorem State.checkPc_cases (s : State) :
    (LegalPc s.pc ∧ s.checkPc = s) ∨
    ((s.pc.toNat < 0x200 ∨ 0xFFF < s.pc.toNat) ∧ s.checkPc = s.raiseFatal (.pcOutOfRange s.pc)) ∨
    ((0x200 ≤ s.pc.toNat ∧ s.pc.toNat ≤ 0xFFF ∧ s.pc.toNat % 2 = 1) ∧
      s.checkPc = s.raiseFatal (.pcMisaligned s.pc)) := by
  have bit : s.pc.getLsbD 0 = decide (s.pc.toNat % 2 = 1) := by
    rw [BitVec.getLsbD, Nat.testBit_zero]
  unfold State.checkPc LegalPc
  rw [bit]
  by_cases h : s.pc.toNat < 0x200 ∨ 0xFFF < s.pc.toNat
  · exact .inr (.inl ⟨h, if_pos h⟩)
  · rw [if_neg h]
    by_cases h' : s.pc.toNat % 2 = 1
    · exact .inr (.inr ⟨⟨by omega, by omega, h'⟩, if_pos (decide_eq_true h')⟩)
    · exact .inl ⟨⟨by omega, by omega, by omega⟩, if_neg (by simpa using h')⟩

/-- What the sequencer does after a step (R160, R152). -/
theorem State.sequence_cases (s : State) :
    (s.exitRequested = true ∧ s.sequence = s) ∨
    (s.exitRequested = false ∧ s.frameStep + 1 < s.stepsPerFrame ∧
      s.sequence = { s with frameStep := s.frameStep + 1 }) ∨
    (s.exitRequested = false ∧ s.stepsPerFrame ≤ s.frameStep + 1 ∧
      s.sequence = { s with frameStep := 0 }.frameBoundary) := by
  unfold State.sequence
  by_cases h : s.exitRequested = true
  · exact .inl ⟨h, if_pos h⟩
  · by_cases h' : s.frameStep + 1 < s.stepsPerFrame
    · exact .inr (.inl ⟨by simpa using h, h', by rw [if_neg h, if_pos h']⟩)
    · exact .inr (.inr ⟨by simpa using h, by omega, by rw [if_neg h, if_neg h']⟩)

/-- Everything a step can be: frozen, a bare frame boundary, the one fault, or an instruction and what follows it. -/
theorem step_cases (s : State) :
    (s.exitRequested = true ∧ step s = .next s) ∨
    (s.exitRequested = false ∧ s.stepsPerFrame = 0 ∧ step s = .next s.frameBoundary) ∨
    (s.exitRequested = false ∧ s.stepsPerFrame ≠ 0 ∧ (∃ k, s.fetch = .error k) ∧
      step s = .fault (.fetchOutsideMemory s.pc)) ∨
    (s.exitRequested = false ∧ s.stepsPerFrame ≠ 0 ∧ ∃ op, s.fetch = .ok op ∧
      step s = (match exec (decodeWord op) s with
        | .next t => .next t.endStep
        | .fault f => .fault f
        | .refused r => .refused r)) := by
  unfold step
  by_cases h : s.exitRequested = true
  · exact .inl ⟨h, if_pos h⟩
  · have h' : s.exitRequested = false := by simpa using h
    by_cases h₀ : s.stepsPerFrame = 0
    · exact .inr (.inl ⟨h', h₀, by rw [if_neg h, if_pos h₀]⟩)
    · cases hf : s.fetch with
      | error k => exact .inr (.inr (.inl ⟨h', h₀, ⟨k, rfl⟩, by rw [if_neg h, if_neg h₀]⟩))
      | ok op => exact .inr (.inr (.inr ⟨h', h₀, op, rfl, (if_neg h).trans (if_neg h₀)⟩))

end Sys2Proof.Machine
end

