-- ==== Sys2Proof/Laws/PerInstr.lean ====
section
/-! SUPPORT. The family RowMatch: an encoded instruction carries the fixed bits of its own row of 30_encoding.md R65. -/

namespace Sys2Proof.Laws.RowMatch

/-- The encoding of a well-formed instruction selects the instruction's row; an unrecognised word is one of R66. -/
def Statement (i : Instr) : Prop :=
  i.wellFormed = true →
    (∃ r ∈ opRows, r.number = i.rowNumber ∧ encode i &&& r.mask = r.pattern) ∨
    (i.rowNumber = 35 ∧ isUnrecognizedWord (encode i) = true)

/-- An encoding meets a row's mask as its pattern does when no operand bit lies under the mask. -/
theorem masked_NNN (n0 : BitVec 4) (nnn : Addr12) : encodeNNN (n0.setWidth 16 <<< 12) nnn &&& 0xF000 = n0.setWidth 16 <<< 12 := by
  refine BitVec.eq_of_getLsbD_eq fun i hi => ?_
  interval_cases i <;> simp [encodeNNN]

theorem masked_XKK (n0 : BitVec 4) (x : Reg) (kk : Byte) : encodeXKK (n0.setWidth 16 <<< 12) x kk &&& 0xF000 = n0.setWidth 16 <<< 12 := by
  refine BitVec.eq_of_getLsbD_eq fun i hi => ?_
  interval_cases i <;> simp [encodeXKK]

theorem masked_XYN (n0 : BitVec 4) (x y n : Fin 16) : encodeXYN (n0.setWidth 16 <<< 12) x y n &&& 0xF000 = n0.setWidth 16 <<< 12 := by
  refine BitVec.eq_of_getLsbD_eq fun i hi => ?_
  interval_cases i <;> simp [encodeXYN]

theorem masked_XY (n0 : BitVec 4) (x y : Reg) : encodeXY (n0.setWidth 16 <<< 12) x y &&& 0xF000 = n0.setWidth 16 <<< 12 := by
  refine BitVec.eq_of_getLsbD_eq fun i hi => ?_
  interval_cases i <;> simp [encodeXY]

theorem masked_XY_sub (n0 n3 : BitVec 4) (x y : Reg) :
    encodeXY (n0.setWidth 16 <<< 12 ||| n3.setWidth 16) x y &&& 0xF00F = n0.setWidth 16 <<< 12 ||| n3.setWidth 16 := by
  refine BitVec.eq_of_getLsbD_eq fun i hi => ?_
  interval_cases i <;> simp [encodeXY]

theorem masked_X (n0 : BitVec 4) (low : Byte) (x : Reg) :
    encodeX (n0.setWidth 16 <<< 12 ||| low.setWidth 16) x &&& 0xF0FF = n0.setWidth 16 <<< 12 ||| low.setWidth 16 := by
  refine BitVec.eq_of_getLsbD_eq fun i hi => ?_
  interval_cases i <;> simp [encodeX]

theorem cls : Statement .cls := fun _ => .inl ⟨⟨1, 0x00E0, 0xF0FF⟩, by decide, rfl, rfl⟩

theorem ret : Statement .ret := fun _ => .inl ⟨⟨2, 0x00EE, 0xF0FF⟩, by decide, rfl, rfl⟩

theorem jmp (nnn : Addr12) : Statement (.jmp nnn) := fun _ => .inl ⟨⟨3, 0x1000, 0xF000⟩, by decide, rfl, masked_NNN 0x1 nnn⟩

theorem call (nnn : Addr12) : Statement (.call nnn) := fun _ => .inl ⟨⟨4, 0x2000, 0xF000⟩, by decide, rfl, masked_NNN 0x2 nnn⟩

theorem skipCmp (x : Reg) (kk : Byte) : Statement (.skipCmp x kk) := fun _ => .inl ⟨⟨5, 0x3000, 0xF000⟩, by decide, rfl, masked_XKK 0x3 x kk⟩

theorem skipNcmp (x : Reg) (kk : Byte) : Statement (.skipNcmp x kk) := fun _ => .inl ⟨⟨6, 0x4000, 0xF000⟩, by decide, rfl, masked_XKK 0x4 x kk⟩

theorem skipRcmp (x y : Reg) : Statement (.skipRcmp x y) := fun _ => .inl ⟨⟨7, 0x5000, 0xF000⟩, by decide, rfl, masked_XY 0x5 x y⟩

theorem sne (x y : Reg) : Statement (.sne x y) := fun _ => .inl ⟨⟨8, 0x9000, 0xF000⟩, by decide, rfl, masked_XY 0x9 x y⟩

theorem mvi (x : Reg) (kk : Byte) : Statement (.mvi x kk) := fun _ => .inl ⟨⟨9, 0x6000, 0xF000⟩, by decide, rfl, masked_XKK 0x6 x kk⟩

theorem addImm (x : Reg) (kk : Byte) : Statement (.addImm x kk) := fun _ => .inl ⟨⟨10, 0x7000, 0xF000⟩, by decide, rfl, masked_XKK 0x7 x kk⟩

theorem mov (x y : Reg) : Statement (.mov x y) := fun _ => .inl ⟨⟨11, 0x8000, 0xF00F⟩, by decide, rfl, masked_XY_sub 0x8 0x0 x y⟩

theorem or (x y : Reg) : Statement (.or x y) := fun _ => .inl ⟨⟨12, 0x8001, 0xF00F⟩, by decide, rfl, masked_XY_sub 0x8 0x1 x y⟩

theorem and (x y : Reg) : Statement (.and x y) := fun _ => .inl ⟨⟨13, 0x8002, 0xF00F⟩, by decide, rfl, masked_XY_sub 0x8 0x2 x y⟩

theorem xor (x y : Reg) : Statement (.xor x y) := fun _ => .inl ⟨⟨14, 0x8003, 0xF00F⟩, by decide, rfl, masked_XY_sub 0x8 0x3 x y⟩

theorem add (x y : Reg) : Statement (.add x y) := fun _ => .inl ⟨⟨15, 0x8004, 0xF00F⟩, by decide, rfl, masked_XY_sub 0x8 0x4 x y⟩

theorem sub (x y : Reg) : Statement (.sub x y) := fun _ => .inl ⟨⟨16, 0x8005, 0xF00F⟩, by decide, rfl, masked_XY_sub 0x8 0x5 x y⟩

theorem shr (x y : Reg) : Statement (.shr x y) := fun _ => .inl ⟨⟨17, 0x8006, 0xF00F⟩, by decide, rfl, masked_XY_sub 0x8 0x6 x y⟩

theorem subn (x y : Reg) : Statement (.subn x y) := fun _ => .inl ⟨⟨18, 0x8007, 0xF00F⟩, by decide, rfl, masked_XY_sub 0x8 0x7 x y⟩

theorem shl (x y : Reg) : Statement (.shl x y) := fun _ => .inl ⟨⟨19, 0x800E, 0xF00F⟩, by decide, rfl, masked_XY_sub 0x8 0xE x y⟩

theorem ldi (nnn : Addr12) : Statement (.ldi nnn) := fun _ => .inl ⟨⟨20, 0xA000, 0xF000⟩, by decide, rfl, masked_NNN 0xA nnn⟩

theorem jmpV (nnn : Addr12) : Statement (.jmpV nnn) := fun _ => .inl ⟨⟨21, 0xB000, 0xF000⟩, by decide, rfl, masked_NNN 0xB nnn⟩

theorem rand (x : Reg) (kk : Byte) : Statement (.rand x kk) := fun _ => .inl ⟨⟨22, 0xC000, 0xF000⟩, by decide, rfl, masked_XKK 0xC x kk⟩

theorem drw (x y : Reg) (n : Fin 16) : Statement (.drw x y n) := fun _ => .inl ⟨⟨23, 0xD000, 0xF000⟩, by decide, rfl, masked_XYN 0xD x y n⟩

theorem skipKeyx (x : Reg) : Statement (.skipKeyx x) := fun _ => .inl ⟨⟨24, 0xE09E, 0xF0FF⟩, by decide, rfl, masked_X 0xE 0x9E x⟩

theorem skipnKeyx (x : Reg) : Statement (.skipnKeyx x) := fun _ => .inl ⟨⟨25, 0xE0A1, 0xF0FF⟩, by decide, rfl, masked_X 0xE 0xA1 x⟩

theorem ldxDt (x : Reg) : Statement (.ldxDt x) := fun _ => .inl ⟨⟨26, 0xF007, 0xF0FF⟩, by decide, rfl, masked_X 0xF 0x07 x⟩

theorem ldxKey (x : Reg) : Statement (.ldxKey x) := fun _ => .inl ⟨⟨27, 0xF00A, 0xF0FF⟩, by decide, rfl, masked_X 0xF 0x0A x⟩

theorem lddtX (x : Reg) : Statement (.lddtX x) := fun _ => .inl ⟨⟨28, 0xF015, 0xF0FF⟩, by decide, rfl, masked_X 0xF 0x15 x⟩

theorem ldstX (x : Reg) : Statement (.ldstX x) := fun _ => .inl ⟨⟨29, 0xF018, 0xF0FF⟩, by decide, rfl, masked_X 0xF 0x18 x⟩

theorem addiX (x : Reg) : Statement (.addiX x) := fun _ => .inl ⟨⟨30, 0xF01E, 0xF0FF⟩, by decide, rfl, masked_X 0xF 0x1E x⟩

theorem ldiFx (x : Reg) : Statement (.ldiFx x) := fun _ => .inl ⟨⟨31, 0xF029, 0xF0FF⟩, by decide, rfl, masked_X 0xF 0x29 x⟩

theorem ldbX (x : Reg) : Statement (.ldbX x) := fun _ => .inl ⟨⟨32, 0xF033, 0xF0FF⟩, by decide, rfl, masked_X 0xF 0x33 x⟩

theorem ldiAll (x : Reg) : Statement (.ldiAll x) := fun _ => .inl ⟨⟨33, 0xF055, 0xF0FF⟩, by decide, rfl, masked_X 0xF 0x55 x⟩

theorem ldxAll (x : Reg) : Statement (.ldxAll x) := fun _ => .inl ⟨⟨34, 0xF065, 0xF0FF⟩, by decide, rfl, masked_X 0xF 0x65 x⟩

theorem unrecognized (op : Word) : Statement (.unrecognized op) := fun h => .inr ⟨rfl, h⟩

end Sys2Proof.Laws.RowMatch
end

