-- ==== Sys2Proof/Tests/Slice0.lean ====
section
/-! SUPPORT. Tests and witnesses. Expected results: "V-…", "S…" are the vectors of 95_test_vectors.md; the other words were
written out by hand from the values and layouts of 30_encoding.md R61 and R65. -/

namespace Sys2Proof.Tests

open Sys2Proof.Machine

/-! ### WellFormed: the one check, and a term it refuses -/

theorem test_smoke_unrecognized_cls_word_is_ill_formed : Instr.wellFormed (.unrecognized 0x00E0) = false := by decide
theorem test_smoke_unrecognized_add_word_is_ill_formed : Instr.wellFormed (.unrecognized 0x8AB4) = false := by decide
theorem test_smoke_unrecognized_words_are_well_formed :
    Instr.wellFormed (.unrecognized 0x00E1) = true ∧ Instr.wellFormed (.unrecognized 0x8128) = true ∧
    Instr.wellFormed (.unrecognized 0xE19F) = true ∧ Instr.wellFormed (.unrecognized 0xF175) = true := by decide

/-! ### Decoding: every constructor -/

/-- V-E5, V-E6, V-E7; R65 rows 3 and 4, V-E4. -/
theorem test_decode_group_0_1_2 :
    decodeWord 0x00E0 = .cls ∧ decodeWord 0x07E0 = .cls ∧ decodeWord 0x0FEE = .ret ∧
    decodeWord 0x120C = .jmp 0x20C ∧ decodeWord 0x2ABC = .call 0xABC := by decide

/-- R65 rows 5 to 10; V-E8, V-E9, V-E1. -/
theorem test_decode_group_3_to_7_and_9 :
    decodeWord 0x3A5C = .skipCmp 10 0x5C ∧ decodeWord 0x4B07 = .skipNcmp 11 0x07 ∧ decodeWord 0x5121 = .skipRcmp 1 2 ∧
    decodeWord 0x912F = .sne 1 2 ∧ decodeWord 0x6A3C = .mvi 10 0x3C ∧ decodeWord 0x7CFE = .addImm 12 0xFE := by decide

/-- R65 rows 11 to 19; V-E2. -/
theorem test_decode_group_8 :
    decodeWord 0x8120 = .mov 1 2 ∧ decodeWord 0x8341 = .or 3 4 ∧ decodeWord 0x8562 = .and 5 6 ∧
    decodeWord 0x8783 = .xor 7 8 ∧ decodeWord 0x8AB4 = .add 10 11 ∧ decodeWord 0x8CD5 = .sub 12 13 ∧
    decodeWord 0x8EF6 = .shr 14 15 ∧ decodeWord 0x8017 = .subn 0 1 ∧ decodeWord 0x823E = .shl 2 3 := by decide

/-- R65 rows 20 to 25; V-E20, V-E3, V-E19. -/
theorem test_decode_group_A_to_E :
    decodeWord 0xA20C = .ldi 0x20C ∧ decodeWord 0xBFFF = .jmpV 0xFFF ∧ decodeWord 0xC50F = .rand 5 0x0F ∧
    decodeWord 0xD125 = .drw 1 2 5 ∧ decodeWord 0xE79E = .skipKeyx 7 ∧ decodeWord 0xE0A1 = .skipnKeyx 0 := by decide

/-- R65 rows 26 to 34; V-E17, V-E18. -/
theorem test_decode_group_F :
    decodeWord 0xF207 = .ldxDt 2 ∧ decodeWord 0xF30A = .ldxKey 3 ∧ decodeWord 0xF415 = .lddtX 4 ∧
    decodeWord 0xF518 = .ldstX 5 ∧ decodeWord 0xF61E = .addiX 6 ∧ decodeWord 0xF729 = .ldiFx 7 ∧
    decodeWord 0xF833 = .ldbX 8 ∧ decodeWord 0xF955 = .ldiAll 9 ∧ decodeWord 0xFF65 = .ldxAll 15 := by decide

/-- V-E10 to V-E16. -/
theorem test_decode_unrecognized :
    decodeWord 0x0000 = .unrecognized 0x0000 ∧ decodeWord 0x00E1 = .unrecognized 0x00E1 ∧
    decodeWord 0x8128 = .unrecognized 0x8128 ∧ decodeWord 0x812F = .unrecognized 0x812F ∧
    decodeWord 0xE19F = .unrecognized 0xE19F ∧ decodeWord 0xF100 = .unrecognized 0xF100 ∧
    decodeWord 0xF175 = .unrecognized 0xF175 := by decide

/-- The encodings of 95_test_vectors.md section 3.1, R69. -/
theorem test_encode_bytes :
    encodeBytes (.mvi 0 5) = [0x60, 0x05] ∧ encodeBytes (.add 0 1) = [0x80, 0x14] ∧
    encodeBytes (.jmp 0x20C) = [0x12, 0x0C] ∧ encodeBytes (.drw 0 1 2) = [0xD0, 0x12] ∧
    encodeBytes (.ldxAll 2) = [0xF2, 0x65] ∧ encodeBytes (.skipCmp 0 0) = [0x30, 0x00] ∧
    encodeBytes .cls = [0x00, 0xE0] ∧ encodeBytes .ret = [0x00, 0xEE] := by decide

/-- R60: an instruction is two bytes, and fewer are refused by name. -/
theorem test_decode_short : decode [] = .error .noBytes ∧ decode [0x60] = .error .oneByte := by decide

/-- The table's numbering (R6, opcode_table.json): bit 0 is the least significant bit of the word. -/
theorem test_decode_table_word : decodeTableWord 16 0x8AB4 = some (.add 10 11) := by decide

/-! ### Single steps -/

/-- A machine at reset but for some registers, `I`, and bytes from an address upwards. -/
def machine (regs : List (Reg × Byte)) (i : Word) (base : Nat) (bytes : List Byte) : State :=
  { regs.foldl (fun s p => s.setReg p.1 p.2) State.reset with I := i, mem := Memory.setAll [] base bytes }

/-- The step ends in a next state with the property. -/
def stepsTo (s : State) (w : Nat) (p : State → Bool) : Bool :=
  match step (s.withFetchWord 16 w) with
  | .next t => p t
  | .fault _ => false
  | .refused _ => false

/-- V-C1. -/
theorem test_jmp : stepsTo State.reset 0x120A (fun t => t.pc == 0x20A) = true := by decide
/-- V-F4, V-F5. -/
theorem test_jmp_fatal :
    (stepsTo State.reset 0x1100 fun t => t.exitRequested && t.pc == 0x100 && t.diagOut == [.fatal (.pcOutOfRange 0x100)]) &&
    (stepsTo State.reset 0x1201 fun t => t.exitRequested && t.diagOut == [.fatal (.pcMisaligned 0x201)]) = true := by decide
/-- V-C3. -/
theorem test_call :
    stepsTo State.reset 0x220A (fun t => t.stack[0] == 0x200 && t.sp == 1 && t.pc == 0x20A) = true := by decide
/-- V-F8. -/
theorem test_call_fatal_after_push :
    stepsTo State.reset 0x2100 (fun t => t.stack[0] == 0x200 && t.sp == 1 && t.pc == 0x100 && t.exitRequested) = true := by
  decide
/-- V-C4. -/
theorem test_ret :
    stepsTo { State.reset with sp := 1, stack := State.reset.stack.set 0 0x204, pc := 0x20C } 0x00EE
      (fun t => t.sp == 0 && t.pc == 0x206 && t.stack[0] == 0x204) = true := by decide
/-- V-F1. -/
theorem test_ret_underflow :
    stepsTo State.reset 0x00EE
      (fun t => t.sp == 0 && t.pc == 0x200 && t.diagOut == [.fatal (.stackUnderflow 0x200)]) = true := by decide
/-- V-C5, its second step. -/
theorem test_jmp_v : stepsTo (machine [(0, 4)] 0 0 []) 0xB300 (fun t => t.pc == 0x304) = true := by decide
/-- V-F6, its second step. -/
theorem test_jmp_v_out_of_range :
    stepsTo (machine [(0, 0xFF)] 0 0 []) 0xBF80 (fun t => t.diagOut == [.fatal (.pcOutOfRange 0x107F)]) = true := by decide
/-- V-C6, V-C7. -/
theorem test_skip_cmp :
    (stepsTo (machine [(0, 0x0A)] 0 0 []) 0x300A fun t => t.pc == 0x204) &&
    (stepsTo (machine [(0, 0x0A)] 0 0 []) 0x300B fun t => t.pc == 0x202) = true := by decide
/-- V-C8, V-C9. -/
theorem test_skip_ncmp :
    (stepsTo (machine [(0, 0x0A)] 0 0 []) 0x400B fun t => t.pc == 0x204) &&
    (stepsTo (machine [(0, 0x0A)] 0 0 []) 0x400A fun t => t.pc == 0x202) = true := by decide
/-- V-C10, V-C11. -/
theorem test_skip_rcmp :
    (stepsTo (machine [(0, 7), (1, 7)] 0 0 []) 0x5010 fun t => t.pc == 0x204) &&
    (stepsTo (machine [(0, 7), (1, 8)] 0 0 []) 0x5010 fun t => t.pc == 0x202) = true := by decide
/-- V-C12, V-C13. -/
theorem test_sne :
    (stepsTo (machine [(0, 7), (1, 8)] 0 0 []) 0x9010 fun t => t.pc == 0x204) &&
    (stepsTo (machine [(0, 7), (1, 7)] 0 0 []) 0x9010 fun t => t.pc == 0x202) = true := by decide
/-- V-F9: a skip taken at 0xFFC leaves memory. -/
theorem test_skip_off_the_end :
    stepsTo { State.reset with pc := 0xFFC } 0x3000 (fun t => t.diagOut == [.fatal (.pcOutOfRange 0x1000)]) = true := by
  decide
/-- V-C16. -/
theorem test_unrecognized :
    stepsTo State.reset 0xF175 (fun t => t.pc == 0x202 && t.diagOut == [.unrecognized 0x200 0xF175]) = true := by decide

/-- V-A24. -/
theorem test_mvi : stepsTo State.reset 0x6F07 (fun t => t.reg 15 == 7 && t.pc == 0x202) = true := by decide
/-- V-A25, V-A27. -/
theorem test_add_imm :
    (stepsTo (machine [(0, 5)] 0 0 []) 0x70FF fun t => t.reg 0 == 4 && t.reg 15 == 0) &&
    (stepsTo (machine [(15, 0xFE)] 0 0 []) 0x7F03 fun t => t.reg 15 == 1) = true := by decide
/-- V-A1. -/
theorem test_mov :
    stepsTo (machine [(0, 0x81), (1, 0x7E)] 0 0 []) 0x8010 (fun t => t.reg 0 == 0x7E && t.reg 1 == 0x7E) = true := by decide
/-- V-A2 with the flag set before. -/
theorem test_or :
    stepsTo (machine [(0, 0xF0), (1, 0x3C), (15, 1)] 0 0 []) 0x8011 (fun t => t.reg 0 == 0xFC && t.reg 15 == 1) = true := by
  decide
/-- V-A4. -/
theorem test_and :
    stepsTo (machine [(0, 0xF0), (1, 0x3C)] 0 0 []) 0x8012 (fun t => t.reg 0 == 0x30 && t.reg 1 == 0x3C) = true := by decide
/-- V-A6. -/
theorem test_xor :
    stepsTo (machine [(0, 0xF0), (1, 0x3C)] 0 0 []) 0x8013 (fun t => t.reg 0 == 0xCC && t.reg 1 == 0x3C) = true := by decide
/-- V-A8, V-A31. -/
theorem test_add :
    (stepsTo (machine [(0, 0xF0), (1, 0x3C)] 0 0 []) 0x8014 fun t => t.reg 0 == 0x2C && t.reg 15 == 1) &&
    (stepsTo (machine [(15, 0xC8), (1, 0x64)] 0 0 []) 0x8F14 fun t => t.reg 15 == 0x2C) = true := by decide
/-- V-A32: the old flag register is the addend. -/
theorem test_add_flag_operand :
    stepsTo (machine [(0, 0xC8), (15, 0x64)] 0 0 []) 0x80F4 (fun t => t.reg 0 == 0x2C && t.reg 15 == 1) = true := by decide
/-- V-A11, V-A12. -/
theorem test_sub :
    (stepsTo (machine [(0, 3), (1, 5), (15, 1)] 0 0 []) 0x8015 fun t => t.reg 0 == 0xFE && t.reg 15 == 0) &&
    (stepsTo (machine [(0, 5), (1, 5)] 0 0 []) 0x8015 fun t => t.reg 0 == 0 && t.reg 15 == 1) = true := by decide
/-- V-A34. -/
theorem test_sub_flag_operand :
    stepsTo (machine [(0, 0xC8), (15, 0x64)] 0 0 []) 0x80F5 (fun t => t.reg 0 == 0x64 && t.reg 15 == 1) = true := by decide
/-- V-A13, V-A35. -/
theorem test_shr :
    (stepsTo (machine [(0, 0x81), (1, 0x7E)] 0 0 []) 0x8016 fun t => t.reg 0 == 0x40 && t.reg 15 == 1) &&
    (stepsTo (machine [(15, 0xC8)] 0 0 []) 0x8F16 fun t => t.reg 15 == 0x64) = true := by decide
/-- V-A15, V-A18. -/
theorem test_subn :
    (stepsTo (machine [(0, 3), (1, 5)] 0 0 []) 0x8017 fun t => t.reg 0 == 2 && t.reg 15 == 1) &&
    (stepsTo (machine [(0, 0xC8), (1, 0x64)] 0 0 []) 0x8017 fun t => t.reg 0 == 0x9C && t.reg 15 == 0) = true := by decide
/-- V-A19, V-A20. -/
theorem test_shl :
    (stepsTo (machine [(0, 0x81), (1, 0x7E)] 0 0 []) 0x801E fun t => t.reg 0 == 2 && t.reg 15 == 1) &&
    (stepsTo (machine [(0, 5), (1, 3)] 0 0 []) 0x801E fun t => t.reg 0 == 0x0A && t.reg 15 == 0) = true := by decide
/-- V-A30: a zero mask, whatever is drawn. -/
theorem test_rand_zero_mask :
    ∃ t, exec (.rand 2 0) (machine [(2, 0x55)] 0 0 []) = .next t ∧ t.reg 2 = 0 ∧ t.pc = 0x202 := by
  refine ⟨_, rfl, ?_, rfl⟩
  show nextDraw _ &&& 0#8 = 0#8
  exact BitVec.and_zero

/-- R120. -/
theorem test_ldi : stepsTo State.reset 0xA20C (fun t => t.I == 0x20C && t.pc == 0x202) = true := by decide
/-- V-M20, its first step; R121 at the top of the width. -/
theorem test_addi_x :
    (stepsTo (machine [(0, 1)] 0x0FFF 0 []) 0xF01E fun t => t.I == 0x1000) &&
    (stepsTo (machine [(0, 1)] 0xFFFF 0 []) 0xF01E fun t => t.I == 0 && t.reg 15 == 0) = true := by decide
/-- R122: 5 times the whole value, no mask. -/
theorem test_ldi_fx :
    (stepsTo (machine [(1, 0x0A)] 0 0 []) 0xF129 fun t => t.I == 0x32) &&
    (stepsTo (machine [(1, 0x10)] 0 0 []) 0xF129 fun t => t.I == 0x50) = true := by decide
/-- S7. -/
theorem test_ldb_x :
    stepsTo (machine [(0, 0x9D)] 0x300 0 []) 0xF033
      (fun t => t.byteAt 0x300 == 1 && t.byteAt 0x301 == 5 && t.byteAt 0x302 == 7 && t.I == 0x300) = true := by decide
/-- R123, R47: three bytes from 0xFFE leave memory. -/
theorem test_ldb_x_bounds :
    stepsTo (machine [(0, 0x9D)] 0xFFE 0 []) 0xF033
      (fun t => t.byteAt 0xFFE == 0 && t.pc == 0x200 && t.diagOut == [.fatal (.memoryBounds 0xFFE)]) = true := by decide
/-- V-M21, its first step. -/
theorem test_ldi_all :
    stepsTo (machine [(0, 0x6F), (1, 0x07)] 0x202 0 []) 0xF155
      (fun t => t.byteAt 0x202 == 0x6F && t.byteAt 0x203 == 0x07 && t.byteAt 0x204 == 0 && t.I == 0x202) = true := by decide
/-- V-M16. -/
theorem test_ldi_all_bounds :
    stepsTo (machine [(0, 1)] 0xFF1 0 []) 0xFF55
      (fun t => t.byteAt 0xFF1 == 0 && t.pc == 0x200 && t.diagOut == [.fatal (.memoryBounds 0xFF1)]) = true := by decide
/-- V-M17. -/
theorem test_ldx_all :
    stepsTo (machine [(3, 0xEE)] 0x300 0x300 [1, 5, 7]) 0xF265
      (fun t => t.reg 0 == 1 && t.reg 1 == 5 && t.reg 2 == 7 && t.reg 3 == 0xEE && t.I == 0x300) = true := by decide
/-- V-M18, V-M19. -/
theorem test_ldx_all_top :
    (stepsTo (machine [] 0xFFF 0xFFF [0x5A]) 0xF065 fun t => t.reg 0 == 0x5A) &&
    (stepsTo (machine [] 0xFFF 0xFFF [0x5A]) 0xF165 fun t => t.reg 0 == 0 && t.exitRequested) = true := by decide

/-- S4 with some pixels lit. -/
theorem test_cls :
    stepsTo { State.reset with fb := Vector.replicate 32 0xF0F0 } 0x00E0
      (fun t => t.fb == Framebuffer.clear && !t.drawRequested) = true := by decide
/-- V-D1: rows 1 and 2 hold one lit pixel each, columns 6 and 13. -/
theorem test_drw :
    stepsTo (machine [(0, 70), (1, 33)] 0x300 0x300 [0x80, 0x01]) 0xD012
      (fun t => t.fb == (Framebuffer.clear.set 1 (1 <<< 6)).set 2 (1 <<< 13) && t.reg 15 == 0 && t.drawRequested) = true := by
  decide
/-- V-D2. -/
theorem test_drw_collision :
    stepsTo { machine [] 0x300 0x300 [0xC0] with fb := Framebuffer.clear.set 0 2 } 0xD011
      (fun t => t.fb == Framebuffer.clear.set 0 1 && t.reg 15 == 1) = true := by decide

/-- V-K1, V-K2. -/
theorem test_skip_keyx :
    (stepsTo { machine [(0, 7)] 0 0 [] with key := State.reset.key.set 7 true } 0xE09E fun t => t.pc == 0x204) &&
    (stepsTo (machine [(0, 7)] 0 0 []) 0xE09E fun t => t.pc == 0x202) = true := by decide
/-- V-K3, V-K4. -/
theorem test_skipn_keyx :
    (stepsTo { machine [(0, 7)] 0 0 [] with key := State.reset.key.set 7 true } 0xE0A1 fun t => t.pc == 0x202) &&
    (stepsTo (machine [(0, 7)] 0 0 []) 0xE0A1 fun t => t.pc == 0x204) = true := by decide
/-- V-K5. -/
theorem test_skip_keyx_bounds :
    stepsTo (machine [(0, 16)] 0 0 []) 0xE09E
      (fun t => t.pc == 0x200 && t.diagOut == [.fatal (.keyIndexOutOfRange 16)]) = true := by decide
/-- V-K7. -/
theorem test_ldx_dt : stepsTo { State.reset with dt := 2 } 0xF207 (fun t => t.reg 2 == 2 && t.dt == 2) = true := by decide
/-- V-K12. -/
theorem test_ldx_key :
    stepsTo { State.reset with key := ((State.reset.key.set 3 true).set 9 true).set 12 true
                               keyprev := State.reset.key.set 3 true } 0xF50A
      (fun t => t.reg 5 == 9 && t.pc == 0x202) = true := by decide
/-- V-K13. -/
theorem test_ldx_key_hold :
    stepsTo { State.reset with key := State.reset.key.set 3 true
                               keyprev := (State.reset.key.set 3 true).set 4 true } 0xF50A
      (fun t => t.pc == 0x200 && t.reg 5 == 0 && t.frameStep == 1) = true := by decide
/-- V-K8. -/
theorem test_lddt_x : stepsTo (machine [(0, 3)] 0 0 []) 0xF015 (fun t => t.dt == 3 && t.st == 0) = true := by decide
/-- V-K9. -/
theorem test_ldst_x :
    stepsTo (machine [(1, 0x1E)] 0 0 []) 0xF118 (fun t => t.st == 30 && t.dt == 0 && t.toneEnable) = true := by decide

/-- V-T1, V-T4: with one step to a batch a JMP is followed by a frame boundary. -/
theorem test_frame_boundary :
    stepsTo { State.reset with frequency := 60, dt := 3, st := 1, drawRequested := true
                               hostIn := [⟨State.reset.key.set 4 true, false⟩, ⟨State.reset.key, true⟩] } 0x1200
      (fun t => t.dt == 2 && t.st == 0 && !t.toneEnable && t.key[4] && !t.keyprev[4] && !t.drawRequested &&
        t.fbOut == some Framebuffer.clear && t.hostIn.length == 1 && !t.exitRequested && t.frameStep == 0) = true := by decide
/-- 20_memory.md R50 and V-K9 with one step to a batch: LDST.X 1 enables the tone, and the tick in the same model step ends it. -/
theorem test_tone_before_tick :
    stepsTo { machine [(1, 1)] 0 0 [] with frequency := 60, hostIn := [⟨State.reset.key, false⟩] } 0xF118
      (fun t => t.toneBeforeTick && !t.toneEnable && t.st == 0 && t.frameStep == 0) = true := by decide
/-- V-T7: a fatal condition comes with no frame boundary. -/
theorem test_no_boundary_after_fatal :
    stepsTo { State.reset with frequency := 60, dt := 5 } 0x00EE (fun t => t.exitRequested && t.dt == 5) = true := by decide

/-! ### Witnesses: states and operands that meet the hypotheses of the obligations, at the ends of their ranges -/

/-- A halted machine. -/
def halted : State := { State.reset with exitRequested := true }

/-- One step to a batch, the host presents one sample. -/
def lastOfBatch (quit : Bool) : State :=
  { State.reset with frequency := 60, hostIn := [⟨State.reset.key.set 4 true, quit⟩] }

/-- `sp` entries saved, each a legal address. -/
def nested (sp : Fin 17) : State := { State.reset with sp := sp, stack := Vector.replicate 16 0x204 }

/-- The reset state meets the invariant. -/
theorem reset_inv : Inv State.reset := by
  refine ⟨by decide, fun _ => by unfold LegalPc; decide, fun k h => absurd h (Nat.not_lt_zero _), Or.inr (by decide)⟩

theorem witness_decoder_rows : (⟨34, 0xF065, 0xF0FF⟩ : OpRow) ∈ opRows ∧ (⟨1, 0x00E0, 0xF0FF⟩ : OpRow) ∈ opRows := by decide

theorem witness_unrecognized_words : isUnrecognizedWord 0x8AB8 = true ∧ isUnrecognizedWord 0x8AB7 = false := by decide

theorem witness_decode_of_encoded :
    Instr.wellFormed (.drw 15 15 15) = true ∧ Instr.wellFormed (.unrecognized 0xFFFF) = true := by decide

theorem witness_fetch : ({ State.reset with pc := 0xFFE } : State).pc.toNat ≤ 0xFFE := by decide

theorem witness_step_runs : let s := State.reset.withFetchWord 16 0x6A3C
    s.exitRequested = false ∧ s.stepsPerFrame ≠ 0 ∧ s.pc.toNat ≤ 0xFFE ∧
    decode [s.byteAt s.pc.toNat, s.byteAt (s.pc.toNat + 1)] = .ok (.mvi 10 0x3C, []) ∧
    ∃ t, exec (.mvi 10 0x3C) s = .next t :=
  ⟨by decide, by decide, by decide, by decide, _, rfl⟩

theorem witness_end_of_step : halted.exitRequested = true ∧ State.reset.exitRequested = false ∧
    (0x1FF#16).toNat < 0x200 ∧ 0xFFF < (0x1000#16).toNat ∧
    0x200 ≤ (0x201#16).toNat ∧ (0x201#16).toNat % 2 = 1 ∧ (0xFFF#16).toNat ≤ 0xFFF ∧ (0xFFF#16).toNat % 2 = 1 ∧
    LegalPc 0x200 ∧ LegalPc 0xFFE := by
  unfold LegalPc; decide

theorem witness_step_keeps_invariant : Inv State.reset ∧ ∃ t, step State.reset = .next t := ⟨reset_inv, _, rfl⟩

theorem witness_boot : ∃ s, State.boot 1 1 [0x12, 0x00] = some s := ⟨_, rfl⟩

theorem witness_boot_lengths : 3584 < (List.replicate 3585 (0 : Byte)).length ∧
    (List.replicate 3584 (0 : Byte)).length ≤ 3584 ∧ 3583 < (List.replicate 3584 (0 : Byte)).length ∧
    0x1FF < 0x200 ∧ 0x200 + [(0x12 : Byte), 0x00].length ≤ 0x202 := by
  simp only [List.length_replicate, List.length_cons, List.length_nil]
  decide

theorem witness_halted : halted.exitRequested = true := rfl

theorem witness_run_ends_fatal : let s := State.reset.withFetchWord 16 0x00EE
    s.exitRequested = false ∧ ∃ t, step s = .next t ∧ t.exitRequested = true := ⟨by decide, _, rfl, by decide⟩

theorem witness_run_ends_quit : let s := (lastOfBatch true).withFetchWord 16 0x1200
    s.exitRequested = false ∧ ∃ t, step s = .next t ∧ t.exitRequested = true := ⟨by decide, _, rfl, by decide⟩

theorem witness_within_batch : ∃ t, step State.reset = .next t ∧ State.reset.frameStep + 1 < State.reset.stepsPerFrame :=
  ⟨_, rfl, by decide⟩

theorem witness_reset_memory : (15 < 16 ∧ 4 < 5) ∧ fontBase + 80 ≤ 0x50 ∧ fontBase + 80 ≤ 0xFFF := by decide

theorem witness_jmp : (0x1FF#12).toNat < 0x200 ∧ 0x200 ≤ (0x201#12).toNat ∧ (0x201#12).toNat % 2 = 1 := by decide

theorem witness_jmp_v : let s := machine [(0, 1)] 0 0 []
    (0x1FE#12).toNat + (s.reg 0).toNat < 0x200 ∧ 0xFFF < (0xFFF#12).toNat + (s.reg 0).toNat ∧
    0x200 ≤ (0xFFE#12).toNat + (s.reg 0).toNat ∧ (0xFFE#12).toNat + (s.reg 0).toNat ≤ 0xFFF ∧
    ((0xFFE#12).toNat + (s.reg 0).toNat) % 2 = 1 := by decide

theorem witness_skip_off_the_end : let s := { State.reset with pc := 0xFFC }
    ∃ t, exec (.skipCmp 0 0) s = .next t ∧ 0xFFF < t.pc.toNat := ⟨_, rfl, by decide⟩

theorem witness_call : (nested 15).sp.val < 16 := by decide

theorem witness_ret : (nested 1).sp.val = (0 : Fin 16).val + 1 ∧ (nested 16).sp.val = (15 : Fin 16).val + 1 := by decide

theorem witness_full_and_empty : (nested 16).sp.val = 16 ∧ (nested 0).sp.val = 0 := by decide

theorem witness_call_then_ret : (nested 15).sp.val < 16 ∧ ∃ t, exec (.call 0x204) (nested 15) = .next t ∧
    ∃ u, exec .ret t = .next u := ⟨by decide, _, rfl, _, rfl⟩

theorem witness_other_register : (0 : Reg) ≠ 15 ∧ (1 : Reg) ≠ 0 ∧ (1 : Reg) ≠ 15 ∧ 7 < 8 := by decide

theorem witness_memory_primitives : Memory.wf (machine [] 0 0x300 [1]).mem = true ∧ 0xFFF < 0x1000 ∧
    (0x1000 : Nat) ≠ 0xFFF := by decide

theorem witness_ldb : let s := machine [(0, 157)] 0xFFD 0x300 [1]
    Memory.wf s.mem = true ∧ s.I.toNat ≤ 0xFFD ∧ 0xFFC < indexBase s := by decide

theorem witness_block_transfers : let s := machine [(0, 157)] 0xFF0 0x300 [1]
    Memory.wf s.mem = true ∧ s.I.toNat + (15 : Reg).val ≤ 0xFFF ∧ (15 : Reg) ≤ 15 ∧ (3 : Reg) < 4 ∧
    indexBase s + (14 : Reg).val < 0xFFF := by decide

theorem witness_range : 0xFFD < (machine [] 0xFFE 0 []).I.toNat ∧
    0xFFF < (machine [] 0xFF1 0 []).I.toNat + (15 : Reg).val ∧
    1 ≤ (2 : Fin 16).val ∧ 0x1000 < (machine [] 0xFFF 0 []).I.toNat + (2 : Fin 16).val ∧
    0x1000 < (machine [] 0x1000 0 []).I.toNat + (1 : Fin 16).val := by decide

theorem witness_restore : let s := machine [(0, 157)] 0xFF0 0 []
    Memory.wf s.mem = true ∧ s.I.toNat + (15 : Reg).val ≤ 0xFFF ∧
    ∃ t, exec (.ldiAll 15) s = .next t ∧ Keeps [.pc, .x] t t ∧ ∃ v, exec (.ldxAll 15) t = .next v :=
  ⟨by decide, by decide, _, rfl, (fun p _ => by cases p <;> simp [Part.Same]), _, rfl⟩

theorem witness_stored_code : let s := { machine [(0, 0x6F), (1, 0x07)] 0xFFE 0 [] with pc := 0xFFC }
    Memory.wf s.mem = true ∧ 1 ≤ (1 : Reg).val ∧ s.I = s.pc + 2 ∧ s.pc.toNat ≤ 0xFFC ∧
    s.I.toNat + (1 : Reg).val ≤ 0xFFF ∧ ∃ t, exec (.ldiAll 1) s = .next t :=
  ⟨by decide, by decide, by decide, by decide, by decide, _, rfl⟩

theorem witness_drw : ((0 : Fin 16).val = 0 ∨ (machine [] 0xFFFF 0 []).I.toNat + (0 : Fin 16).val ≤ 0x1000) ∧
    ((15 : Fin 16).val = 0 ∨ (machine [] 0xFF1 0 []).I.toNat + (15 : Fin 16).val ≤ 0x1000) := by decide

/-- A collision: the left pixel of the sprite is lit already. -/
theorem witness_drw_collision : let s := { machine [] 0x300 0x300 [0x80] with fb := Framebuffer.clear.set 0 1 }
    ∃ (c : Fin 64) (r : Fin 32), s.pixel c r = true ∧ SpriteLit s (s.reg 0).toNat (s.reg 1).toNat 1 c r :=
  ⟨0, 0, by decide, 0, 0, by decide, by decide, by decide, by decide, by decide⟩

/-- No collision: nothing is lit. -/
theorem witness_drw_no_collision : let s := machine [] 0x300 0x300 [0x80]
    ¬ ∃ (c : Fin 64) (r : Fin 32), s.pixel c r = true ∧ SpriteLit s (s.reg 0).toNat (s.reg 1).toNat 1 c r := by
  rintro s ⟨c, r, h, _⟩
  have e : s.fb[r] = 0#64 := by show (Vector.replicate 32 0#64)[r] = 0#64; simp
  simp [State.pixel, Framebuffer.pixel, e] at h

theorem witness_drawing_twice : let s := machine [(0, 62), (1, 31)] 0x300 0x300 [0xF0]
    ((1 : Fin 16).val = 0 ∨ s.I.toNat + (1 : Fin 16).val ≤ 0x1000) ∧
    (∃ t, exec (.drw 0 1 1) s = .next t ∧ (t.reg 0).toNat % 64 = (s.reg 0).toNat % 64 ∧
      (t.reg 1).toNat % 32 = (s.reg 1).toNat % 32 ∧ ∃ u, exec (.drw 0 1 1) t = .next u) ∧
    (∃ (c : Fin 64) (r : Fin 32), s.pixel c r = false ∧ SpriteLit s (s.reg 0).toNat (s.reg 1).toNat 1 c r) ∧
    (∃ k j : Nat, k < (1 : Fin 16).val ∧ j < 8 ∧ (s.byteAt (s.I.toNat + k)).getLsbD j = true) ∧
    s.fb = Framebuffer.clear :=
  ⟨by decide, ⟨_, rfl, by decide, by decide, _, rfl⟩,
    ⟨0, 31, by decide, 0, 2, by decide, by decide, by decide, by decide, by decide⟩,
    ⟨0, 7, by decide, by decide, by decide⟩, rfl⟩

/-- Every pixel lit: the first draw lights none, so the second meets none. -/
theorem witness_drawing_twice_no_collision :
    let s := { machine [(0, 62), (1, 31)] 0x300 0x300 [0xF0] with fb := Vector.replicate 32 (BitVec.allOnes 64) }
    ((1 : Fin 16).val = 0 ∨ s.I.toNat + (1 : Fin 16).val ≤ 0x1000) ∧
    (∃ t, exec (.drw 0 1 1) s = .next t ∧ (t.reg 0).toNat % 64 = (s.reg 0).toNat % 64 ∧
      (t.reg 1).toNat % 32 = (s.reg 1).toNat % 32 ∧ ∃ u, exec (.drw 0 1 1) t = .next u ∧ u.reg 15 = 0) ∧
    ¬ ∃ (c : Fin 64) (r : Fin 32), s.pixel c r = false ∧ SpriteLit s (s.reg 0).toNat (s.reg 1).toNat 1 c r := by
  refine ⟨by decide, ⟨_, rfl, by decide, by decide, _, rfl, by decide⟩, ?_⟩
  rintro ⟨c, r, h, _⟩
  have row : (Vector.replicate 32 (BitVec.allOnes 64))[r] = BitVec.allOnes 64 := Vector.getElem_replicate r.isLt
  have lit : ((Vector.replicate 32 (BitVec.allOnes 64))[r]).getLsbD c.val = true := by
    rw [row, BitVec.getLsbD_allOnes]; exact decide_eq_true c.isLt
  exact absurd (h.symm.trans lit) (by decide)

theorem witness_key_skips : ((machine [(0, 15)] 0 0 []).reg 0).toNat = (15 : Fin 16).val ∧
    ((machine [(0, 0)] 0 0 []).reg 0).toNat = (0 : Fin 16).val := by decide

theorem witness_key_index : 15 < ((machine [(0, 16)] 0 0 []).reg 0).toNat := by decide

theorem witness_key_wait_edge : let s := { State.reset with key := Vector.replicate 16 true
                                                            keyprev := (Vector.replicate 16 true).set 15 false }
    s.key[(15 : Fin 16)] = true ∧ s.keyprev[(15 : Fin 16)] = false ∧
    ∀ j : Fin 16, j < 15 → ¬ (s.key[j] = true ∧ s.keyprev[j] = false) := by decide

theorem witness_key_wait_hold : let s := { State.reset with key := State.reset.key.set 3 true
                                                            keyprev := (State.reset.key.set 3 true).set 4 true }
    ∀ k : Fin 16, s.key[k] = true → s.keyprev[k] = true := by decide

theorem witness_frame_boundary : State.reset.drawRequested = false ∧
    ({ State.reset with drawRequested := true } : State).drawRequested = true := by decide

theorem witness_batch : State.reset.exitRequested = false ∧
    ({ State.reset with frameStep := 998 } : State).frameStep + 1 < ({ State.reset with frameStep := 998 } : State).stepsPerFrame ∧
    ({ State.reset with frameStep := 999 } : State).stepsPerFrame ≤ ({ State.reset with frameStep := 999 } : State).frameStep + 1 := by
  decide

theorem witness_tone : State.reset.exitRequested = false ∧ ¬ LegalPc 0x201 ∧ LegalPc State.reset.pc ∧
    State.reset.frameStep + 1 < State.reset.stepsPerFrame ∧
    ({ State.reset with frameStep := 999 } : State).stepsPerFrame ≤ ({ State.reset with frameStep := 999 } : State).frameStep + 1 := by
  unfold LegalPc; decide

theorem witness_empty_batches : let s := { State.reset with frequency := 59 }
    s.exitRequested = false ∧ s.frequency < s.refreshRate := by decide

end Sys2Proof.Tests
end

section
/-! PROOFS. Memory: what a fetch reads (20_memory.md R43). -/

namespace Sys2Proof.Machine

/-- The first byte of a word weighs 256 (R43). -/
theorem toNat_wordOfBytes (hi lo : Byte) : (wordOfBytes hi lo).toNat = 256 * hi.toNat + lo.toNat := by
  have append : (wordOfBytes hi lo).toNat = hi.toNat <<< 8 ||| lo.toNat := BitVec.toNat_append hi lo
  rw [append, ← Nat.shiftLeft_add_eq_or_of_lt lo.isLt, Nat.shiftLeft_eq, Nat.mul_comm]

/-- Settles O6: the fetched word is `wordOfBytes` of the two bytes, whose value is the big-endian one. -/
theorem fetchIsBigEndian : Obligations.FetchIsBigEndian :=
  fun s h => ⟨_, s.fetch_of_le h, toNat_wordOfBytes _ _⟩

end Sys2Proof.Machine
end

section
/-! PROOFS. Control flow: the register skips (40_control_flow.md R87 to R90). -/

namespace Sys2Proof.Machine

/-- Above the top of memory CheckPc raises its range error (R82). -/
theorem State.checkPc_of_gt (s : State) (h : 0xFFF < s.pc.toNat) : s.checkPc = s.raiseFatal (.pcOutOfRange s.pc) := by
  obtain ⟨⟨_, hle, _⟩, _⟩ | ⟨_, raises⟩ | ⟨⟨_, hle, _⟩, _⟩ := s.checkPc_cases
  · omega
  · exact raises
  · omega

@[simp] theorem State.applyOutcome_skipIf_pc (s : State) (c : Bool) :
    (s.applyOutcome (skipIf c)).pc = s.pc + (if c then 4 else 2) := by
  cases c <;> rfl

/-- An instruction that only skips on `c` changes `pc` alone, by the distance `d` that `c` selects. -/
theorem exec_skip {i : Instr} {s : State} {c : Bool} {d : Word}
    (skips : exec i s = complete s (skipIf c)) (distance : (if c then 4 else 2) = d) :
    ∃ t, exec i s = .next t ∧ t.pc = s.pc + d ∧ Keeps [.pc] s t ∧
      (0xFFF < t.pc.toNat → t.checkPc = t.raiseFatal (.pcOutOfRange t.pc)) :=
  ⟨_, skips, by rw [State.applyOutcome_skipIf_pc, distance], keeps_applyOutcome s _, State.checkPc_of_gt _⟩

/-- Settles O26: each of the four is a skip; SKIP.CMP and SKIP.RCMP test for equal bytes, SKIP.NCMP and SNE for unequal ones. -/
theorem registerSkipsAdvanceByFourOrTwo : Obligations.RegisterSkipsAdvanceByFourOrTwo := by
  intro x y kk s
  have onEqual (a b : Byte) : (if a == b then 4 else 2 : Word) = if a.toNat = b.toNat then 4 else 2 := by
    simp [BitVec.toNat_inj]
  have onUnequal (a b : Byte) : (if a != b then 4 else 2 : Word) = if a.toNat = b.toNat then 2 else 4 := by
    simp [BitVec.toNat_inj]
  exact ⟨exec_skip rfl (onEqual _ _), exec_skip rfl (onUnequal _ _), exec_skip rfl (onEqual _ _),
    exec_skip rfl (onUnequal _ _)⟩

end Sys2Proof.Machine
end

section
/-! PROOFS. Registers and arithmetic: loads, immediate addition, logic, and addition with carry (41_alu.md R100 to R107,
44_timer_keypad.md R142). -/

namespace Sys2Proof.Machine

/-- An outcome adds `pc` to the parts an instruction changed. -/
theorem Keeps.applyOutcome {a : List Part} {s t : State} (h : Keeps a s t) (o : PcOutcome) :
    Keeps (.pc :: a) s (t.applyOutcome o) :=
  (h.mono (List.subset_cons_self _ _)).trans ((keeps_applyOutcome t o).mono (by simp))

/-- A flagged write is two register writes. -/
theorem keeps_writeFlagged (s : State) (x : Reg) (fr : Flagged) : Keeps [.x] s (s.writeFlagged x fr) :=
  (keeps_setReg s 15 (flagValue fr.1)).trans (keeps_setReg _ x fr.2)

/-- An instruction that only writes `v` to `x[X]` gives that register whatever property `v` has, and sets no flag. -/
theorem exec_setReg {i : Instr} {s : State} {x : Reg} {v : Byte} {P : Byte → Prop}
    (writes : exec i s = complete (s.setReg x v) .advance2) (result : P v) :
    ∃ t, exec i s = .next t ∧ P (t.reg x) ∧ (∀ r, r ≠ x → t.reg r = s.reg r) ∧ t.pc = s.pc + 2 ∧ Keeps [.pc, .x] s t :=
  ⟨_, writes, by simpa using result, fun r other => by simp [other.symm], rfl, (keeps_setReg s x v).applyOutcome _⟩

/-- An instruction that only writes a flag and then a result (R100): the flag is seen in `x[15]` unless the result stands
there. -/
theorem exec_writeFlagged {i : Instr} {s : State} {x : Reg} {fr : Flagged} {P : Byte → Prop} {n : Nat}
    (writes : exec i s = complete (s.writeFlagged x fr) .advance2) (result : P fr.2) (flag : (flagValue fr.1).toNat = n) :
    ∃ t, exec i s = .next t ∧ P (t.reg x) ∧ (x ≠ 15 → (t.reg 15).toNat = n) ∧
      (∀ r, r ≠ x → r ≠ 15 → t.reg r = s.reg r) ∧ t.pc = s.pc + 2 ∧ Keeps [.pc, .x] s t :=
  ⟨_, writes, by simpa using result, fun notFlag => by simpa [notFlag] using flag,
    fun r other notFlag => by simp [other.symm, notFlag.symm], rfl, (keeps_writeFlagged s x fr).applyOutcome _⟩

/-- Settles O28: each of the three is one register write. -/
theorem loadsWriteTheirDestinationOnly : Obligations.LoadsWriteTheirDestinationOnly :=
  fun _x y kk s => ⟨exec_setReg (P := (· = kk)) rfl rfl, exec_setReg (P := (· = s.reg y)) rfl rfl,
    exec_setReg (P := (· = s.dt)) rfl rfl⟩

theorem toNat_addWrapped (a b : Byte) : (addWrapped a b).toNat = (a.toNat + b.toNat) % 256 := BitVec.toNat_ofNat _ 8

/-- Settles O29: one register write, of the wrapped sum. -/
theorem addImmediateWrapsWithoutFlag : Obligations.AddImmediateWrapsWithoutFlag :=
  fun x kk s => exec_setReg (P := fun v => v.toNat = ((s.reg x).toNat + kk.toNat) % 256) rfl (toNat_addWrapped _ _)

/-- Settles O30: each of the three is one register write, of the two bytes combined bit by bit. -/
theorem logicWorksBitByBitWithoutFlag : Obligations.LogicWorksBitByBitWithoutFlag :=
  fun x y s =>
    ⟨exec_setReg (P := fun v => ∀ k < 8, v.getLsbD k = ((s.reg x).getLsbD k || (s.reg y).getLsbD k)) rfl
        fun _ _ => BitVec.getLsbD_or,
      exec_setReg (P := fun v => ∀ k < 8, v.getLsbD k = ((s.reg x).getLsbD k && (s.reg y).getLsbD k)) rfl
        fun _ _ => BitVec.getLsbD_and,
      exec_setReg (P := fun v => ∀ k < 8, v.getLsbD k = ((s.reg x).getLsbD k ^^ (s.reg y).getLsbD k)) rfl
        fun _ _ => BitVec.getLsbD_xor⟩

/-- The flag is 0 or 1 (R13). -/
theorem toNat_flagValue (b : Bool) : (flagValue b).toNat = if b then 1 else 0 := by cases b <;> rfl

theorem toNat_addFlagged_snd (a b : Byte) : (addFlagged a b).2.toNat = (a.toNat + b.toNat) % 256 := toNat_addWrapped a b

/-- The carry of an addition as a number (R107). -/
theorem toNat_flagValue_addFlagged (a b : Byte) :
    (flagValue (addFlagged a b).1).toNat = if a.toNat + b.toNat > 255 then 1 else 0 := by
  simp [toNat_flagValue, addFlagged]

/-- Settles O31: the carry is written to `x[15]`, then the wrapped sum to `x[X]`. -/
theorem addSetsCarryThenResult : Obligations.AddSetsCarryThenResult :=
  fun x y s => exec_writeFlagged (P := fun v => v.toNat = ((s.reg x).toNat + (s.reg y).toNat) % 256) rfl
    (toNat_addFlagged_snd _ _) (toNat_flagValue_addFlagged _ _)

end Sys2Proof.Machine
end

section
/-! PROOFS. The index register: loading an address (42_index_memory.md R120). -/

namespace Sys2Proof.Machine

/-- A 12-bit address extended to 16 bits keeps its value. -/
@[simp] theorem toNat_zextAddr (nnn : Addr12) : (zextAddr nnn).toNat = nnn.toNat :=
  BitVec.toNat_setWidth_of_le (by decide)

/-- A write of `I` changes `I` alone. -/
theorem keeps_withI (s : State) (a : Word) : Keeps [.I] s { s with I := a } := by
  intro p hp
  cases p <;> simp_all [Part.Same, State.byteAt, State.reg, State.pixel]

/-- Settles O35: one write of `I`, of the extended address. -/
theorem ldiLoadsTheAddress : Obligations.LdiLoadsTheAddress :=
  fun nnn s => ⟨_, rfl, toNat_zextAddr nnn, rfl, (keeps_withI s (zextAddr nnn)).applyOutcome .advance2⟩

end Sys2Proof.Machine
end

section
/-! PROOFS. The timers: loading them and their tick (44_timer_keypad.md R144, R145; 60_exceptions.md R161). -/

namespace Sys2Proof.Machine

/-- A tick takes one off, and a timer at 0 stays there (R161). -/
theorem toNat_tickTimer (t : Byte) : (tickTimer t).toNat = t.toNat - 1 := by
  unfold tickTimer
  split
  case isTrue running => exact BitVec.toNat_sub_of_le running
  case isFalse stopped => omega

/-- The tone is on exactly while the sound timer is not 0 (R19). -/
theorem State.toneEnable_iff (s : State) : s.toneEnable = true ↔ s.st.toNat > 0 := decide_eq_true_iff

/-- A write of the delay timer changes it alone. -/
theorem keeps_withDt (s : State) (v : Byte) : Keeps [.dt] s { s with dt := v } := by
  intro p hp
  cases p <;> simp_all [Part.Same, State.byteAt, State.reg, State.pixel]

/-- A write of the sound timer changes it alone. -/
theorem keeps_withSt (s : State) (v : Byte) : Keeps [.st] s { s with st := v } := by
  intro p hp
  cases p <;> simp_all [Part.Same, State.byteAt, State.reg, State.pixel]

/-- Settles O51: each is one write of its timer, and the frame boundary after it ticks the value written. -/
theorem timerLoadsSetTheirTimer : Obligations.TimerLoadsSetTheirTimer :=
  fun x s =>
    ⟨⟨_, rfl, rfl, by rw [State.frameBoundary_dt]; exact toNat_tickTimer _, rfl,
        (keeps_withDt s (s.reg x)).applyOutcome .advance2⟩,
      ⟨_, rfl, rfl, by rw [State.frameBoundary_st]; exact toNat_tickTimer _, State.toneEnable_iff _, rfl,
        (keeps_withSt s (s.reg x)).applyOutcome .advance2⟩⟩

end Sys2Proof.Machine
end

section
/-! PROOFS. Encoding and decoding (30_encoding.md R61 to R69): the decoder undoes the encoder, and the encoder the decoder but for
the ignored nibbles. -/

namespace Sys2Proof

/-! ### Encoding a decoded word -/

/-- `n0` as the bits of the word. -/
theorem eq_n0_of_fieldN0 {op : Word} {n0 : BitVec 4} (group : fieldN0 op = n0.toFin) : op.extractLsb' 12 4 = n0 :=
  BitVec.toFin_inj.1 group

theorem nibbleBits_fieldN1 (op : Word) : nibbleBits (fieldN1 op) = op.extractLsb' 8 4 := rfl

theorem nibbleBits_fieldN2 (op : Word) : nibbleBits (fieldN2 op) = op.extractLsb' 4 4 := rfl

theorem nibbleBits_fieldN3 (op : Word) : nibbleBits (fieldN3 op) = op.extractLsb' 0 4 := rfl

theorem encodeNNN_fields {op : Word} {n0 : BitVec 4} (group : fieldN0 op = n0.toFin) :
    encodeNNN (n0.setWidth 16 <<< 12) (fieldNnn op) = op &&& 0xFFFF := by
  obtain rfl := eq_n0_of_fieldN0 group
  refine BitVec.eq_of_getLsbD_eq fun i hi => ?_
  interval_cases i <;> simp [encodeNNN, fieldNnn]

theorem encodeXKK_fields {op : Word} {n0 : BitVec 4} (group : fieldN0 op = n0.toFin) :
    encodeXKK (n0.setWidth 16 <<< 12) (fieldN1 op) (fieldKk op) = op &&& 0xFFFF := by
  obtain rfl := eq_n0_of_fieldN0 group
  refine BitVec.eq_of_getLsbD_eq fun i hi => ?_
  interval_cases i <;> simp [encodeXKK, nibbleBits_fieldN1, fieldKk]

theorem encodeXYN_fields {op : Word} {n0 : BitVec 4} (group : fieldN0 op = n0.toFin) :
    encodeXYN (n0.setWidth 16 <<< 12) (fieldN1 op) (fieldN2 op) (fieldN3 op) = op &&& 0xFFFF := by
  obtain rfl := eq_n0_of_fieldN0 group
  refine BitVec.eq_of_getLsbD_eq fun i hi => ?_
  interval_cases i <;> simp [encodeXYN, nibbleBits_fieldN1, nibbleBits_fieldN2, nibbleBits_fieldN3]

/-- The ignored nibble `n3` of SKIP.RCMP and SNE is lost (R64). -/
theorem encodeXY_fields {op : Word} {n0 : BitVec 4} (group : fieldN0 op = n0.toFin) :
    encodeXY (n0.setWidth 16 <<< 12) (fieldN1 op) (fieldN2 op) = op &&& 0xFFF0 := by
  obtain rfl := eq_n0_of_fieldN0 group
  refine BitVec.eq_of_getLsbD_eq fun i hi => ?_
  interval_cases i <;> simp [encodeXY, nibbleBits_fieldN1, nibbleBits_fieldN2]

/-- Where `n3` is the sub-opcode, format XY keeps the whole word, as format XYN does. -/
theorem encodeXY_sub_fields {op : Word} {n0 n3 : BitVec 4} (group : fieldN0 op = n0.toFin) (sub : fieldN3 op = n3.toFin) :
    encodeXY (n0.setWidth 16 <<< 12 ||| n3.setWidth 16) (fieldN1 op) (fieldN2 op) = op &&& 0xFFFF := by
  rw [encodeXY_eq_encodeXYN, ← sub, encodeXYN_fields group]

theorem encodeX_fields {op : Word} {n0 : BitVec 4} {low : Byte} (group : fieldN0 op = n0.toFin) (kk : fieldKk op = low) :
    encodeX (n0.setWidth 16 <<< 12 ||| low.setWidth 16) (fieldN1 op) = op &&& 0xFFFF := by
  obtain rfl := eq_n0_of_fieldN0 group
  subst kk
  refine BitVec.eq_of_getLsbD_eq fun i hi => ?_
  interval_cases i <;> simp [encodeX, nibbleBits_fieldN1, fieldKk]

/-- The ignored nibble `n1` of CLS and RET is lost (R64). -/
theorem masked_n1_fields {op : Word} {n0 : BitVec 4} {low : Byte} (group : fieldN0 op = n0.toFin) (kk : fieldKk op = low) :
    n0.setWidth 16 <<< 12 ||| low.setWidth 16 = op &&& 0xF0FF := by
  obtain rfl := eq_n0_of_fieldN0 group
  subst kk
  refine BitVec.eq_of_getLsbD_eq fun i hi => ?_
  interval_cases i <;> simp [fieldKk]

/-- The bits of a word that its row reads (R64). -/
def readMask : Nat → Word
  | 1 => 0xF0FF
  | 2 => 0xF0FF
  | 7 => 0xFFF0
  | 8 => 0xFFF0
  | _ => 0xFFFF

/-- A well-formed instruction stands for a word: its encoding is the word but for the bits its row ignores. -/
def StandsFor (i : Instr) (op : Word) : Prop := i.wellFormed = true ∧ encode i = op &&& readMask i.rowNumber

theorem standsFor_unrecognized {op : Word} (listed : isUnrecognizedWord op = true) : StandsFor (.unrecognized op) op :=
  ⟨listed, (BitVec.and_allOnes (x := op)).symm⟩

/-! ### The words of R66, group by group -/

theorem isUnrecognizedWord_of_group0 {op : Word} (group : fieldN0 op = 0x0) :
    isUnrecognizedWord op = ((fieldKk op).toNat != 0xE0 && (fieldKk op).toNat != 0xEE) := by
  have n0 : op.toNat / 0x1000 = 0x0 := (fieldN0_val op).symm.trans (congrArg Fin.val group)
  simp only [isUnrecognizedWord, n0, fieldKk_toNat]

theorem isUnrecognizedWord_of_group8 {op : Word} (group : fieldN0 op = 0x8) :
    isUnrecognizedWord op = [0x8, 0x9, 0xA, 0xB, 0xC, 0xD, 0xF].contains (fieldN3 op).val := by
  have n0 : op.toNat / 0x1000 = 0x8 := (fieldN0_val op).symm.trans (congrArg Fin.val group)
  simp only [isUnrecognizedWord, n0, fieldN3_val]

theorem isUnrecognizedWord_of_groupE {op : Word} (group : fieldN0 op = 0xE) :
    isUnrecognizedWord op = ((fieldKk op).toNat != 0x9E && (fieldKk op).toNat != 0xA1) := by
  have n0 : op.toNat / 0x1000 = 0xE := (fieldN0_val op).symm.trans (congrArg Fin.val group)
  simp only [isUnrecognizedWord, n0, fieldKk_toNat]

theorem isUnrecognizedWord_of_groupF {op : Word} (group : fieldN0 op = 0xF) :
    isUnrecognizedWord op = !groupFLowBytes.contains (fieldKk op).toNat := by
  have n0 : op.toNat / 0x1000 = 0xF := (fieldN0_val op).symm.trans (congrArg Fin.val group)
  simp only [isUnrecognizedWord, n0, fieldKk_toNat]

/-- In every other group each word selects a row. -/
theorem isUnrecognizedWord_of_fullGroup {op : Word} (sub : fieldN0 op ≠ 0x8) (low : fieldN0 op ∉ [0x0, 0xE, 0xF]) :
    isUnrecognizedWord op = false := by
  have group {n0 : Fin 16} (eq : op.toNat / 0x1000 = n0.val) : fieldN0 op = n0 := Fin.ext ((fieldN0_val op).trans eq)
  unfold isUnrecognizedWord
  split
  case h_1 eq => simp [group (n0 := 0x0) eq] at low
  case h_2 eq => exact absurd (group eq) sub
  case h_3 eq => simp [group (n0 := 0xE) eq] at low
  case h_4 eq => simp [group (n0 := 0xF) eq] at low
  case h_5 => rfl

/-! ### The decoder's answers, group by group -/

theorem decodeGroup0_standsFor {op : Word} (group : fieldN0 op = 0x0) : StandsFor (decodeGroup0 op) op := by
  unfold decodeGroup0
  split
  case h_1 low => exact ⟨rfl, masked_n1_fields (n0 := 0x0) (low := 0xE0) group (BitVec.eq_of_toNat_eq low)⟩
  case h_2 low => exact ⟨rfl, masked_n1_fields (n0 := 0x0) (low := 0xEE) group (BitVec.eq_of_toNat_eq low)⟩
  case h_3 notCls notRet =>
    refine standsFor_unrecognized ?_
    rw [isUnrecognizedWord_of_group0 group]
    simp_all

theorem decodeGroup8_standsFor {op : Word} (group : fieldN0 op = 0x8) : StandsFor (decodeGroup8 op) op := by
  unfold decodeGroup8
  split
  case h_1 sub => exact ⟨rfl, encodeXY_sub_fields (n0 := 0x8) (n3 := 0x0) group (Fin.ext sub)⟩
  case h_2 sub => exact ⟨rfl, encodeXY_sub_fields (n0 := 0x8) (n3 := 0x1) group (Fin.ext sub)⟩
  case h_3 sub => exact ⟨rfl, encodeXY_sub_fields (n0 := 0x8) (n3 := 0x2) group (Fin.ext sub)⟩
  case h_4 sub => exact ⟨rfl, encodeXY_sub_fields (n0 := 0x8) (n3 := 0x3) group (Fin.ext sub)⟩
  case h_5 sub => exact ⟨rfl, encodeXY_sub_fields (n0 := 0x8) (n3 := 0x4) group (Fin.ext sub)⟩
  case h_6 sub => exact ⟨rfl, encodeXY_sub_fields (n0 := 0x8) (n3 := 0x5) group (Fin.ext sub)⟩
  case h_7 sub => exact ⟨rfl, encodeXY_sub_fields (n0 := 0x8) (n3 := 0x6) group (Fin.ext sub)⟩
  case h_8 sub => exact ⟨rfl, encodeXY_sub_fields (n0 := 0x8) (n3 := 0x7) group (Fin.ext sub)⟩
  case h_9 sub => exact ⟨rfl, encodeXY_sub_fields (n0 := 0x8) (n3 := 0xE) group (Fin.ext sub)⟩
  case h_10 =>
    refine standsFor_unrecognized ?_
    rw [isUnrecognizedWord_of_group8 group]
    have := (fieldN3 op).isLt
    simp only [List.contains_iff_mem, List.mem_cons, List.not_mem_nil, or_false, imp_false] at *
    omega

theorem decodeGroupE_standsFor {op : Word} (group : fieldN0 op = 0xE) : StandsFor (decodeGroupE op) op := by
  unfold decodeGroupE
  split
  case h_1 low => exact ⟨rfl, encodeX_fields (n0 := 0xE) (low := 0x9E) group (BitVec.eq_of_toNat_eq low)⟩
  case h_2 low => exact ⟨rfl, encodeX_fields (n0 := 0xE) (low := 0xA1) group (BitVec.eq_of_toNat_eq low)⟩
  case h_3 =>
    refine standsFor_unrecognized ?_
    rw [isUnrecognizedWord_of_groupE group]
    simp_all

theorem decodeGroupF_standsFor {op : Word} (group : fieldN0 op = 0xF) : StandsFor (decodeGroupF op) op := by
  unfold decodeGroupF
  split
  case h_1 low => exact ⟨rfl, encodeX_fields (n0 := 0xF) (low := 0x07) group (BitVec.eq_of_toNat_eq low)⟩
  case h_2 low => exact ⟨rfl, encodeX_fields (n0 := 0xF) (low := 0x0A) group (BitVec.eq_of_toNat_eq low)⟩
  case h_3 low => exact ⟨rfl, encodeX_fields (n0 := 0xF) (low := 0x15) group (BitVec.eq_of_toNat_eq low)⟩
  case h_4 low => exact ⟨rfl, encodeX_fields (n0 := 0xF) (low := 0x18) group (BitVec.eq_of_toNat_eq low)⟩
  case h_5 low => exact ⟨rfl, encodeX_fields (n0 := 0xF) (low := 0x1E) group (BitVec.eq_of_toNat_eq low)⟩
  case h_6 low => exact ⟨rfl, encodeX_fields (n0 := 0xF) (low := 0x29) group (BitVec.eq_of_toNat_eq low)⟩
  case h_7 low => exact ⟨rfl, encodeX_fields (n0 := 0xF) (low := 0x33) group (BitVec.eq_of_toNat_eq low)⟩
  case h_8 low => exact ⟨rfl, encodeX_fields (n0 := 0xF) (low := 0x55) group (BitVec.eq_of_toNat_eq low)⟩
  case h_9 low => exact ⟨rfl, encodeX_fields (n0 := 0xF) (low := 0x65) group (BitVec.eq_of_toNat_eq low)⟩
  case h_10 =>
    refine standsFor_unrecognized ?_
    rw [isUnrecognizedWord_of_groupF group]
    simp_all [groupFLowBytes]

/-- Whatever the decoder answers stands for the word it was given. -/
theorem decodeWord_standsFor (op : Word) : StandsFor (decodeWord op) op := by
  unfold decodeWord
  split
  case h_1 group => exact decodeGroup0_standsFor (Fin.ext group)
  case h_2 group => exact ⟨rfl, encodeNNN_fields (n0 := 0x1) (Fin.ext group)⟩
  case h_3 group => exact ⟨rfl, encodeNNN_fields (n0 := 0x2) (Fin.ext group)⟩
  case h_4 group => exact ⟨rfl, encodeXKK_fields (n0 := 0x3) (Fin.ext group)⟩
  case h_5 group => exact ⟨rfl, encodeXKK_fields (n0 := 0x4) (Fin.ext group)⟩
  case h_6 group => exact ⟨rfl, encodeXY_fields (n0 := 0x5) (Fin.ext group)⟩
  case h_7 group => exact ⟨rfl, encodeXKK_fields (n0 := 0x6) (Fin.ext group)⟩
  case h_8 group => exact ⟨rfl, encodeXKK_fields (n0 := 0x7) (Fin.ext group)⟩
  case h_9 group => exact decodeGroup8_standsFor (Fin.ext group)
  case h_10 group => exact ⟨rfl, encodeXY_fields (n0 := 0x9) (Fin.ext group)⟩
  case h_11 group => exact ⟨rfl, encodeNNN_fields (n0 := 0xA) (Fin.ext group)⟩
  case h_12 group => exact ⟨rfl, encodeNNN_fields (n0 := 0xB) (Fin.ext group)⟩
  case h_13 group => exact ⟨rfl, encodeXKK_fields (n0 := 0xC) (Fin.ext group)⟩
  case h_14 group => exact ⟨rfl, encodeXYN_fields (n0 := 0xD) (Fin.ext group)⟩
  case h_15 group => exact decodeGroupE_standsFor (Fin.ext group)
  case h_16 =>
    have group : (fieldN0 op).val = 0xF := by
      have := (fieldN0 op).isLt
      simp only [imp_false] at *
      omega
    exact decodeGroupF_standsFor (Fin.ext group)

/-- Settles O5: the decoder's answer stands for the word, read bit by read bit. -/
theorem encodeOfDecodedWordKeepsEveryReadBit : Obligations.EncodeOfDecodedWordKeepsEveryReadBit :=
  decodeWord_standsFor

/-! ### The rows of the opcode map -/

/-- The family RowMatch as one statement. -/
theorem encode_selects_row (i : Instr) : Laws.RowMatch.Statement i := by
  cases i with
  | cls => exact Laws.RowMatch.cls
  | ret => exact Laws.RowMatch.ret
  | jmp nnn => exact Laws.RowMatch.jmp nnn
  | call nnn => exact Laws.RowMatch.call nnn
  | skipCmp x kk => exact Laws.RowMatch.skipCmp x kk
  | skipNcmp x kk => exact Laws.RowMatch.skipNcmp x kk
  | skipRcmp x y => exact Laws.RowMatch.skipRcmp x y
  | sne x y => exact Laws.RowMatch.sne x y
  | mvi x kk => exact Laws.RowMatch.mvi x kk
  | addImm x kk => exact Laws.RowMatch.addImm x kk
  | mov x y => exact Laws.RowMatch.mov x y
  | or x y => exact Laws.RowMatch.or x y
  | and x y => exact Laws.RowMatch.and x y
  | xor x y => exact Laws.RowMatch.xor x y
  | add x y => exact Laws.RowMatch.add x y
  | sub x y => exact Laws.RowMatch.sub x y
  | shr x y => exact Laws.RowMatch.shr x y
  | subn x y => exact Laws.RowMatch.subn x y
  | shl x y => exact Laws.RowMatch.shl x y
  | ldi nnn => exact Laws.RowMatch.ldi nnn
  | jmpV nnn => exact Laws.RowMatch.jmpV nnn
  | rand x kk => exact Laws.RowMatch.rand x kk
  | drw x y n => exact Laws.RowMatch.drw x y n
  | skipKeyx x => exact Laws.RowMatch.skipKeyx x
  | skipnKeyx x => exact Laws.RowMatch.skipnKeyx x
  | ldxDt x => exact Laws.RowMatch.ldxDt x
  | ldxKey x => exact Laws.RowMatch.ldxKey x
  | lddtX x => exact Laws.RowMatch.lddtX x
  | ldstX x => exact Laws.RowMatch.ldstX x
  | addiX x => exact Laws.RowMatch.addiX x
  | ldiFx x => exact Laws.RowMatch.ldiFx x
  | ldbX x => exact Laws.RowMatch.ldbX x
  | ldiAll x => exact Laws.RowMatch.ldiAll x
  | ldxAll x => exact Laws.RowMatch.ldxAll x
  | unrecognized op => exact Laws.RowMatch.unrecognized op

theorem eq_unrecognized_of_rowNumber {i : Instr} (row : i.rowNumber = 35) : i = .unrecognized (encode i) :=
  match i, row with
  | .unrecognized _, _ => rfl

theorem mask_subset_readMask : ∀ r ∈ opRows, readMask r.number &&& r.mask = r.mask := by decide

/-- A word selects the row of the instruction it decodes to, or is unrecognised and listed in R66. -/
theorem decodeWord_row (op : Word) :
    (∃ r ∈ opRows, r.number = (decodeWord op).rowNumber ∧ op &&& r.mask = r.pattern) ∨
    (decodeWord op = .unrecognized op ∧ isUnrecognizedWord op = true) := by
  obtain ⟨wf, bits⟩ := decodeWord_standsFor op
  obtain ⟨r, hr, number, selects⟩ | ⟨row, listed⟩ := encode_selects_row (decodeWord op) wf
  · refine .inl ⟨r, hr, number, ?_⟩
    rw [← selects, bits, ← number, BitVec.and_assoc, mask_subset_readMask r hr]
  · have same : encode (decodeWord op) = op := by
      rw [bits, row]
      exact BitVec.and_allOnes
    rw [same] at listed
    exact .inr ⟨(eq_unrecognized_of_rowNumber row).trans (congrArg _ same), listed⟩

/-- A mask that covers `n0` keeps it. -/
theorem fieldN0_and {op m : Word} (covered : m.extractLsb' 12 4 = BitVec.allOnes 4) : fieldN0 (op &&& m) = fieldN0 op := by
  rw [fieldN0, BitVec.extractLsb'_and, covered, BitVec.and_allOnes, fieldN0]

theorem fieldN3_and {op m : Word} (covered : m.extractLsb' 0 4 = BitVec.allOnes 4) : fieldN3 (op &&& m) = fieldN3 op := by
  rw [fieldN3, BitVec.extractLsb'_and, covered, BitVec.and_allOnes, fieldN3]

theorem fieldKk_and {op m : Word} (covered : m.extractLsb' 0 8 = BitVec.allOnes 8) : fieldKk (op &&& m) = fieldKk op := by
  rw [fieldKk, BitVec.extractLsb'_and, covered, BitVec.and_allOnes, fieldKk]

/-- Whether R66 lists a word depends on `n0` and, in the groups that have one, on the secondary discriminator. -/
theorem isUnrecognizedWord_congr {a b : Word} (group : fieldN0 a = fieldN0 b) (sub : fieldN0 b = 0x8 → fieldN3 a = fieldN3 b)
    (low : fieldN0 b ∈ [0x0, 0xE, 0xF] → fieldKk a = fieldKk b) : isUnrecognizedWord a = isUnrecognizedWord b := by
  by_cases h8 : fieldN0 b = 0x8
  · rw [isUnrecognizedWord_of_group8 (group.trans h8), isUnrecognizedWord_of_group8 h8, sub h8]
  by_cases hl : fieldN0 b ∈ [0x0, 0xE, 0xF]
  · have same := low hl
    simp only [List.mem_cons, List.not_mem_nil, or_false] at hl
    obtain h | h | h := hl
    · rw [isUnrecognizedWord_of_group0 (group.trans h), isUnrecognizedWord_of_group0 h, same]
    · rw [isUnrecognizedWord_of_groupE (group.trans h), isUnrecognizedWord_of_groupE h, same]
    · rw [isUnrecognizedWord_of_groupF (group.trans h), isUnrecognizedWord_of_groupF h, same]
  · rw [isUnrecognizedWord_of_fullGroup (group ▸ h8) (group ▸ hl), isUnrecognizedWord_of_fullGroup h8 hl]

/-- The three masks of the map, by whether their group has a secondary discriminator and which. -/
theorem mask_cases : ∀ r ∈ opRows,
    (r.mask = 0xF000 ∧ fieldN0 r.pattern ≠ 0x8 ∧ fieldN0 r.pattern ∉ [0x0, 0xE, 0xF]) ∨
    (r.mask = 0xF00F ∧ fieldN0 r.pattern ∉ [0x0, 0xE, 0xF]) ∨
    (r.mask = 0xF0FF ∧ fieldN0 r.pattern ≠ 0x8) := by decide

theorem pattern_not_isUnrecognizedWord : ∀ r ∈ opRows, isUnrecognizedWord r.pattern = false := by decide

/-- R66 lists no word that selects a row. -/
theorem not_isUnrecognizedWord_of_row {op : Word} {r : OpRow} (hr : r ∈ opRows) (selects : op &&& r.mask = r.pattern) :
    isUnrecognizedWord op = false := by
  have rows := mask_cases r hr
  rw [← pattern_not_isUnrecognizedWord r hr]
  rw [← selects] at rows ⊢
  obtain ⟨mask, noSub, noLow⟩ | ⟨mask, noLow⟩ | ⟨mask, noSub⟩ := rows
  all_goals refine isUnrecognizedWord_congr (fieldN0_and (by rw [mask]; decide)).symm ?_ ?_
  · exact fun sub => absurd sub noSub
  · exact fun low => absurd low noLow
  · exact fun _ => (fieldN3_and (by rw [mask]; decide)).symm
  · exact fun low => absurd low noLow
  · exact fun sub => absurd sub noSub
  · exact fun _ => (fieldKk_and (by rw [mask]; decide)).symm

/-- Settles O3: a listed word selects no row, and a word that is not listed selects one of the 34. -/
theorem unrecognizedWordsAreExactlyTheListedOnes : Obligations.UnrecognizedWordsAreExactlyTheListedOnes := by
  have numbers : ∀ r ∈ opRows, r.number ≤ 34 := by decide
  intro op
  obtain ⟨r, hr, number, selects⟩ | ⟨decodes, listed⟩ := decodeWord_row op
  · have unlisted := not_isUnrecognizedWord_of_row hr selects
    exact ⟨fun listed => absurd (unlisted.symm.trans listed) (by decide), fun _ => number ▸ numbers r hr⟩
  · exact ⟨fun _ => decodes, fun unlisted => absurd (unlisted.symm.trans listed) (by decide)⟩

/-- No word selects two rows (R65). -/
theorem rows_disjoint : ∀ r ∈ opRows, ∀ r' ∈ opRows, r.pattern &&& r'.mask = r'.pattern &&& r.mask → r = r' := by decide

theorem number_injective : ∀ r ∈ opRows, ∀ r' ∈ opRows, r.number = r'.number → r = r' := by decide

theorem number_ne_unrecognized : ∀ r ∈ opRows, r.number ≠ 35 := by decide

/-- Settles O2: the row of the decoder's answer is selected, and no other row is. -/
theorem decoderSelectsTheRowOfTheOpcodeMap : Obligations.DecoderSelectsTheRowOfTheOpcodeMap := by
  intro op r hr
  obtain ⟨r', hr', number, selects'⟩ | ⟨decodes, listed⟩ := decodeWord_row op
  · constructor
    · intro same
      obtain rfl := number_injective r hr r' hr' (same.symm.trans number.symm)
      exact selects'
    · intro selects
      have meet : r.pattern &&& r'.mask = r'.pattern &&& r.mask := by
        rw [← selects, ← selects', BitVec.and_assoc, BitVec.and_assoc, BitVec.and_comm r.mask]
      obtain rfl := rows_disjoint r hr r' hr' meet
      exact number.symm
  · constructor
    · intro same
      rw [decodes] at same
      exact absurd same.symm (number_ne_unrecognized r hr)
    · intro selects
      exact absurd (listed.symm.trans (not_isUnrecognizedWord_of_row hr selects)) (by decide)

/-! ### Decoding an encoded instruction -/

theorem decodeWord_of_group8 {op : Word} (group : fieldN0 op = 0x8) : decodeWord op = decodeGroup8 op := by
  simp [decodeWord, group]

theorem decodeWord_of_groupE {op : Word} (group : fieldN0 op = 0xE) : decodeWord op = decodeGroupE op := by
  simp [decodeWord, group]

theorem decodeWord_of_groupF {op : Word} (group : fieldN0 op = 0xF) : decodeWord op = decodeGroupF op := by
  simp [decodeWord, group]

/-- An instruction of format NNN decodes to its row's constructor with its address. -/
theorem decodeWord_encodeNNN {n0 : BitVec 4} {f : Addr12 → Instr}
    (row : ∀ op : Word, fieldN0 op = n0.toFin → decodeWord op = f (fieldNnn op)) (nnn : Addr12) :
    decodeWord (encodeNNN (n0.setWidth 16 <<< 12) nnn) = f nnn := by
  rw [row _ (fieldN0_encodeNNN n0 nnn), fieldNnn_encodeNNN]

theorem decodeWord_encodeXKK {n0 : BitVec 4} {f : Reg → Byte → Instr}
    (row : ∀ op : Word, fieldN0 op = n0.toFin → decodeWord op = f (fieldN1 op) (fieldKk op)) (x : Reg) (kk : Byte) :
    decodeWord (encodeXKK (n0.setWidth 16 <<< 12) x kk) = f x kk := by
  rw [row _ (fieldN0_encodeXKK n0 x kk), fieldN1_encodeXKK, fieldKk_encodeXKK]

theorem decodeWord_encodeXYN {n0 : BitVec 4} {f : Reg → Reg → Fin 16 → Instr}
    (row : ∀ op : Word, fieldN0 op = n0.toFin → decodeWord op = f (fieldN1 op) (fieldN2 op) (fieldN3 op)) (x y n : Fin 16) :
    decodeWord (encodeXYN (n0.setWidth 16 <<< 12) x y n) = f x y n := by
  rw [row _ (fieldN0_encodeXYN n0 x y n), fieldN1_encodeXYN, fieldN2_encodeXYN, fieldN3_encodeXYN]

/-- An instruction of format XY whose last nibble the decoder does not read. -/
theorem decodeWord_encodeXY {n0 : BitVec 4} {f : Reg → Reg → Instr}
    (row : ∀ op : Word, fieldN0 op = n0.toFin → decodeWord op = f (fieldN1 op) (fieldN2 op)) (x y : Reg) :
    decodeWord (encodeXY (n0.setWidth 16 <<< 12 ||| (0#4).setWidth 16) x y) = f x y := by
  rw [encodeXY_eq_encodeXYN, row _ (fieldN0_encodeXYN n0 x y _), fieldN1_encodeXYN, fieldN2_encodeXYN]

/-- An instruction of group 8, with its sub-opcode `n3`. -/
theorem decodeWord_encodeXY_group8 {n3 : BitVec 4} {f : Reg → Reg → Instr}
    (row : ∀ op : Word, fieldN3 op = n3.toFin → decodeGroup8 op = f (fieldN1 op) (fieldN2 op)) (x y : Reg) :
    decodeWord (encodeXY ((0x8#4).setWidth 16 <<< 12 ||| n3.setWidth 16) x y) = f x y := by
  rw [encodeXY_eq_encodeXYN, decodeWord_of_group8 (fieldN0_encodeXYN 0x8#4 x y _), row _ (fieldN3_encodeXYN 0x8#4 x y _),
    fieldN1_encodeXYN, fieldN2_encodeXYN]

/-- An instruction of group E, with its low byte. -/
theorem decodeWord_encodeX_groupE {low : Byte} {f : Reg → Instr}
    (row : ∀ op : Word, fieldKk op = low → decodeGroupE op = f (fieldN1 op)) (x : Reg) :
    decodeWord (encodeX ((0xE#4).setWidth 16 <<< 12 ||| low.setWidth 16) x) = f x := by
  rw [decodeWord_of_groupE (fieldN0_encodeX 0xE#4 low x), row _ (fieldKk_encodeX 0xE#4 low x), fieldN1_encodeX]

/-- An instruction of group F, with its low byte. -/
theorem decodeWord_encodeX_groupF {low : Byte} {f : Reg → Instr}
    (row : ∀ op : Word, fieldKk op = low → decodeGroupF op = f (fieldN1 op)) (x : Reg) :
    decodeWord (encodeX ((0xF#4).setWidth 16 <<< 12 ||| low.setWidth 16) x) = f x := by
  rw [decodeWord_of_groupF (fieldN0_encodeX 0xF#4 low x), row _ (fieldKk_encodeX 0xF#4 low x), fieldN1_encodeX]

theorem decodeWord_encode (i : Instr) (wf : i.wellFormed = true) : decodeWord (encode i) = i := by
  cases i with
  | cls | ret => decide
  | jmp nnn => exact decodeWord_encodeNNN (n0 := 0x1) (fun op h => by simp [decodeWord, h]) nnn
  | call nnn => exact decodeWord_encodeNNN (n0 := 0x2) (fun op h => by simp [decodeWord, h]) nnn
  | ldi nnn => exact decodeWord_encodeNNN (n0 := 0xA) (fun op h => by simp [decodeWord, h]) nnn
  | jmpV nnn => exact decodeWord_encodeNNN (n0 := 0xB) (fun op h => by simp [decodeWord, h]) nnn
  | skipCmp x kk => exact decodeWord_encodeXKK (n0 := 0x3) (fun op h => by simp [decodeWord, h]) x kk
  | skipNcmp x kk => exact decodeWord_encodeXKK (n0 := 0x4) (fun op h => by simp [decodeWord, h]) x kk
  | mvi x kk => exact decodeWord_encodeXKK (n0 := 0x6) (fun op h => by simp [decodeWord, h]) x kk
  | addImm x kk => exact decodeWord_encodeXKK (n0 := 0x7) (fun op h => by simp [decodeWord, h]) x kk
  | rand x kk => exact decodeWord_encodeXKK (n0 := 0xC) (fun op h => by simp [decodeWord, h]) x kk
  | drw x y n => exact decodeWord_encodeXYN (n0 := 0xD) (fun op h => by simp [decodeWord, h]) x y n
  | skipRcmp x y => exact decodeWord_encodeXY (n0 := 0x5) (fun op h => by simp [decodeWord, h]) x y
  | sne x y => exact decodeWord_encodeXY (n0 := 0x9) (fun op h => by simp [decodeWord, h]) x y
  | mov x y => exact decodeWord_encodeXY_group8 (n3 := 0x0) (fun _ h => by simp [decodeGroup8, h]) x y
  | or x y => exact decodeWord_encodeXY_group8 (n3 := 0x1) (fun _ h => by simp [decodeGroup8, h]) x y
  | and x y => exact decodeWord_encodeXY_group8 (n3 := 0x2) (fun _ h => by simp [decodeGroup8, h]) x y
  | xor x y => exact decodeWord_encodeXY_group8 (n3 := 0x3) (fun _ h => by simp [decodeGroup8, h]) x y
  | add x y => exact decodeWord_encodeXY_group8 (n3 := 0x4) (fun _ h => by simp [decodeGroup8, h]) x y
  | sub x y => exact decodeWord_encodeXY_group8 (n3 := 0x5) (fun _ h => by simp [decodeGroup8, h]) x y
  | shr x y => exact decodeWord_encodeXY_group8 (n3 := 0x6) (fun _ h => by simp [decodeGroup8, h]) x y
  | subn x y => exact decodeWord_encodeXY_group8 (n3 := 0x7) (fun _ h => by simp [decodeGroup8, h]) x y
  | shl x y => exact decodeWord_encodeXY_group8 (n3 := 0xE) (fun _ h => by simp [decodeGroup8, h]) x y
  | skipKeyx x => exact decodeWord_encodeX_groupE (low := 0x9E) (fun _ h => by simp [decodeGroupE, h]) x
  | skipnKeyx x => exact decodeWord_encodeX_groupE (low := 0xA1) (fun _ h => by simp [decodeGroupE, h]) x
  | ldxDt x => exact decodeWord_encodeX_groupF (low := 0x07) (fun _ h => by simp [decodeGroupF, h]) x
  | ldxKey x => exact decodeWord_encodeX_groupF (low := 0x0A) (fun _ h => by simp [decodeGroupF, h]) x
  | lddtX x => exact decodeWord_encodeX_groupF (low := 0x15) (fun _ h => by simp [decodeGroupF, h]) x
  | ldstX x => exact decodeWord_encodeX_groupF (low := 0x18) (fun _ h => by simp [decodeGroupF, h]) x
  | addiX x => exact decodeWord_encodeX_groupF (low := 0x1E) (fun _ h => by simp [decodeGroupF, h]) x
  | ldiFx x => exact decodeWord_encodeX_groupF (low := 0x29) (fun _ h => by simp [decodeGroupF, h]) x
  | ldbX x => exact decodeWord_encodeX_groupF (low := 0x33) (fun _ h => by simp [decodeGroupF, h]) x
  | ldiAll x => exact decodeWord_encodeX_groupF (low := 0x55) (fun _ h => by simp [decodeGroupF, h]) x
  | ldxAll x => exact decodeWord_encodeX_groupF (low := 0x65) (fun _ h => by simp [decodeGroupF, h]) x
  | unrecognized op => exact (unrecognizedWordsAreExactlyTheListedOnes op).1 wf

/-- Settles O4: the two bytes are the encoded word, and the decoder undoes the encoder. -/
theorem decodeOfEncodedBytesIsTheInstruction : Obligations.DecodeOfEncodedBytesIsTheInstruction := by
  intro i rest wf
  show decode (highByte (encode i) :: lowByte (encode i) :: rest) = _
  rw [decode_encodeBytes, decodeWord_encode i wf]


/-- Settles O1: ten words the kernel decodes. -/
theorem specWordsDecodeToTheirInstructions : Obligations.SpecWordsDecodeToTheirInstructions := by
  unfold Obligations.SpecWordsDecodeToTheirInstructions
  decide

end Sys2Proof
end

section
/-! PROOFS. Control flow: CheckPc, the jumps, the call stack and the unrecognised no-op (40_control_flow.md R82 to R86, R91). -/

namespace Sys2Proof.Machine

/-- An instruction has one next state. -/
theorem exec_unique {i : Instr} {s t u : State} (runs : exec i s = .next t) (runs' : exec i s = .next u) : t = u :=
  Host.Outcome.next.inj (runs.symm.trans runs')

/-! ### CheckPc, case by case -/

theorem State.checkPc_of_outside (s : State) (h : s.pc.toNat < 0x200 ∨ 0xFFF < s.pc.toNat) :
    s.checkPc = s.raiseFatal (.pcOutOfRange s.pc) := by
  obtain ⟨⟨_, _, _⟩, _⟩ | ⟨_, raises⟩ | ⟨⟨_, _, _⟩, _⟩ := s.checkPc_cases
  · omega
  · exact raises
  · omega

theorem State.checkPc_of_odd (s : State) (low : 0x200 ≤ s.pc.toNat) (high : s.pc.toNat ≤ 0xFFF) (odd : s.pc.toNat % 2 = 1) :
    s.checkPc = s.raiseFatal (.pcMisaligned s.pc) := by
  obtain ⟨⟨_, _, _⟩, _⟩ | ⟨_, _⟩ | ⟨_, raises⟩ := s.checkPc_cases
  · omega
  · omega
  · exact raises

theorem State.checkPc_of_legal (s : State) (legal : LegalPc s.pc) : s.checkPc = s := by
  obtain ⟨low, high, even⟩ := legal
  obtain ⟨_, passes⟩ | ⟨_, _⟩ | ⟨_, _⟩ := s.checkPc_cases
  · exact passes
  · omega
  · omega

/-! ### Jumps -/

/-- Settles O20: an outcome and no write; CheckPc judges `nnn`. -/
theorem jmpSetsPcToNnn : Obligations.JmpSetsPcToNnn := by
  intro nnn s
  have pc : (s.applyOutcome (.setPc (zextAddr nnn))).pc.toNat = nnn.toNat := toNat_zextAddr nnn
  have := nnn.isLt
  refine ⟨_, rfl, pc, keeps_applyOutcome s _, fun low => State.checkPc_of_outside _ (by omega),
    fun low odd => State.checkPc_of_odd _ (by omega) (by omega) (by omega)⟩

/-- The target of JMP.V fits in 16 bits, so nothing is reduced (R86). -/
theorem toNat_offsetTarget (s : State) (nnn : Addr12) : (offsetTarget s nnn).toNat = nnn.toNat + (s.reg 0).toNat := by
  have byte : (zextByte (s.reg 0)).toNat = (s.reg 0).toNat := BitVec.toNat_setWidth_of_le (by decide)
  have := nnn.isLt
  have := (s.reg 0).isLt
  rw [offsetTarget, BitVec.toNat_add, toNat_zextAddr, byte, Nat.mod_eq_of_lt (by omega)]

/-- Settles O21: an outcome and no write; CheckPc judges the unreduced sum. -/
theorem jmpVAddsRegisterZero : Obligations.JmpVAddsRegisterZero := by
  intro nnn s
  have pc : (s.applyOutcome (.setPc (offsetTarget s nnn))).pc.toNat = _ := toNat_offsetTarget s nnn
  refine ⟨_, rfl, pc, keeps_applyOutcome s _, fun out => State.checkPc_of_outside _ (by rwa [pc]),
    fun low high odd => State.checkPc_of_odd _ (by rwa [pc]) (by rwa [pc]) (by rwa [pc])⟩

/-! ### The call stack -/

/-- A write of the stack and of its count changes these two alone. -/
theorem keeps_withStack (s : State) (stack : Vector Word 16) (sp : Fin 17) :
    Keeps [.stack, .sp] s { s with stack := stack, sp := sp } := by
  intro p hp
  cases p <;> simp_all [Part.Same, State.byteAt, State.reg, State.pixel]

/-- A write of the stack's count changes it alone. -/
theorem keeps_withSp (s : State) (sp : Fin 17) : Keeps [.sp] s { s with sp := sp } := by
  intro p hp
  cases p <;> simp_all [Part.Same, State.byteAt, State.reg, State.pixel]

theorem execCall_of_lt (nnn : Addr12) (s : State) (room : s.sp.val < 16) : exec (.call nnn) s =
    complete { s with stack := s.stack.set s.sp.val s.pc, sp := ⟨s.sp.val + 1, Nat.succ_lt_succ room⟩ }
      (.setPc (zextAddr nnn)) := by
  simp [exec, execCall, s.push_of_lt room]

theorem execCall_of_full (nnn : Addr12) (s : State) (full : s.sp.val = 16) :
    exec (.call nnn) s = .next (s.raiseFatal (.stackOverflow s.pc)) := by
  simp [exec, execCall, s.push_of_full full, fatal]

theorem execRet_of_succ (s : State) {n : Nat} (saved : s.sp.val = n + 1) : exec .ret s =
    complete { s with sp := ⟨n, by omega⟩ } (.setPc (s.stack[n]'(by omega) + retResumeOffset)) := by
  simp [exec, execRet, s.pop_of_succ saved]

theorem execRet_of_empty (s : State) (empty : s.sp.val = 0) :
    exec .ret s = .next (s.raiseFatal (.stackUnderflow s.pc)) := by
  simp [exec, execRet, s.pop_of_empty empty, fatal]

/-- Settles O24: a full push and an empty pop raise before they write. -/
theorem fullAndEmptyStackAreFatal : Obligations.FullAndEmptyStackAreFatal :=
  fun nnn s => ⟨execCall_of_full nnn s, execRet_of_empty s⟩

/-- Settles O22: one write of the stack and its count, and the outcome `nnn`. -/
theorem callPushesItsOwnAddress : Obligations.CallPushesItsOwnAddress := by
  intro nnn s room
  refine ⟨_, execCall_of_lt nnn s room, fun k => ?_, rfl, toNat_zextAddr nnn, (keeps_withStack s _ _).applyOutcome _⟩
  simp [Vector.getElem_set, eq_comm]

/-- Settles O23: one write of the stack's count, and the outcome 2 beyond the entry it uncovers. -/
theorem retResumesAfterTheSavedAddress : Obligations.RetResumesAfterTheSavedAddress :=
  fun s _k saved => ⟨_, execRet_of_succ s saved, rfl, rfl, (keeps_withSp s _).applyOutcome _⟩

/-- Settles O25: RET uncovers the entry CALL wrote. -/
theorem callThenRetResumesAfterTheCall : Obligations.CallThenRetResumesAfterTheCall := by
  intro nnn s t u room call ret
  obtain ⟨t', call', stack, sp, -, keepsCall⟩ := callPushesItsOwnAddress nnn s room
  obtain rfl := exec_unique call call'
  obtain ⟨u', ret', sp', pc, keepsRet⟩ := retResumesAfterTheSavedAddress t ⟨s.sp.val, room⟩ sp
  obtain rfl := exec_unique ret ret'
  have count : u.sp = s.sp := Fin.ext sp'
  refine ⟨by rw [pc, stack, if_pos rfl], count, fun p hp => ?_⟩
  by_cases h : p = .sp
  · subst h; exact count
  · exact (keepsCall p (by simp_all)).trans (keepsRet p (by simp_all))

/-! ### The unrecognised no-op -/

/-- A report changes `diag_out` alone. -/
theorem keeps_withDiagOut (s : State) (ds : List Diag) : Keeps [.diagOut] s { s with diagOut := ds } := by
  intro p hp
  cases p <;> simp_all [Part.Same, State.byteAt, State.reg, State.pixel]

/-- Settles O27: one report, and two bytes on. -/
theorem unrecognizedIsAReportedNoOp : Obligations.UnrecognizedIsAReportedNoOp :=
  fun _op s => ⟨_, rfl, rfl, rfl, (keeps_withDiagOut s _).applyOutcome _⟩

end Sys2Proof.Machine
end

section
/-! PROOFS. Arithmetic: subtractions, shifts and RAND (41_alu.md R108 to R113). -/

namespace Sys2Proof.Machine

/-- A difference narrowed to a byte, over the integers modulo 256 (R108). -/
theorem toNat_subFlagged_snd (a b : Byte) : ((subFlagged a b).2.toNat : Int) = (a.toNat - b.toNat : Int) % 256 := by
  have narrowed : (subFlagged a b).2.toNat = (a.toNat + 256 - b.toNat) % 256 := BitVec.toNat_ofNat _ 8
  have := b.isLt
  omega

theorem toNat_flagValue_subFlagged (a b : Byte) :
    (flagValue (subFlagged a b).1).toNat = if a.toNat ≥ b.toNat then 1 else 0 := by
  simp [toNat_flagValue, subFlagged]

/-- Settles O32: SUBN is SUB with the operands exchanged. -/
theorem subtractionsSetNoBorrowThenResult : Obligations.SubtractionsSetNoBorrowThenResult :=
  fun x y s =>
    ⟨exec_writeFlagged (P := fun v => (v.toNat : Int) = ((s.reg x).toNat - (s.reg y).toNat : Int) % 256) rfl
        (toNat_subFlagged_snd _ _) (toNat_flagValue_subFlagged _ _),
      exec_writeFlagged (fr := subFlagged (s.reg y) (s.reg x))
        (P := fun v => (v.toNat : Int) = ((s.reg y).toNat - (s.reg x).toNat : Int) % 256) rfl
        (toNat_subFlagged_snd _ _) (toNat_flagValue_subFlagged _ _)⟩

theorem toNat_shrFlagged_snd (a : Byte) : (shrFlagged a).2.toNat = a.toNat / 2 := by
  simp [shrFlagged, Nat.shiftRight_eq_div_pow]

/-- SHR shifts bit 0 out. -/
theorem toNat_flagValue_shrFlagged (a : Byte) : (flagValue (shrFlagged a).1).toNat = a.toNat % 2 := by
  have bit : a.getLsbD 0 = decide (a.toNat % 2 = 1) := by rw [BitVec.getLsbD, Nat.testBit_zero]
  rw [toNat_flagValue, shrFlagged, bit]
  split <;> simp_all

theorem toNat_shlFlagged_snd (a : Byte) : (shlFlagged a).2.toNat = 2 * a.toNat % 256 := by
  simp [shlFlagged, Nat.shiftLeft_eq, Nat.mul_comm]

/-- SHL shifts bit 7 out. -/
theorem toNat_flagValue_shlFlagged (a : Byte) : (flagValue (shlFlagged a).1).toNat = if a.toNat ≥ 128 then 1 else 0 := by
  have bit : a.getLsbD 7 = decide (a.toNat ≥ 128) := BitVec.msb_eq_decide a
  rw [toNat_flagValue, shlFlagged, bit]
  simp

/-- Settles O33: the bit shifted out is written to `x[15]`, then the shifted byte to `x[X]`. -/
theorem shiftsSetTheBitShiftedOutThenResult : Obligations.ShiftsSetTheBitShiftedOutThenResult :=
  fun x _y s =>
    ⟨exec_writeFlagged (P := fun v => v.toNat = (s.reg x).toNat / 2) rfl
        (toNat_shrFlagged_snd _) (toNat_flagValue_shrFlagged _),
      exec_writeFlagged (P := fun v => v.toNat = 2 * (s.reg x).toNat % 256) rfl
        (toNat_shlFlagged_snd _) (toNat_flagValue_shlFlagged _)⟩

/-- Using up a draw changes the count of draws alone. -/
theorem keeps_withDraws (s : State) (n : Nat) : Keeps [.draws] s { s with draws := n } := by
  intro p hp
  cases p <;> simp_all [Part.Same, State.byteAt, State.reg, State.pixel]

/-- A further register write adds the registers to the parts changed. -/
theorem Keeps.setReg {a : List Part} {s t : State} (h : Keeps a s t) (r : Reg) (v : Byte) :
    Keeps (.x :: a) s (t.setReg r v) :=
  (h.mono (List.subset_cons_self _ _)).trans ((keeps_setReg t r v).mono (by simp))

/-- Settles O34: one draw is used up, and its masked value written to `x[X]`. -/
theorem randMasksAFreeDraw : Obligations.RandMasksAFreeDraw := by
  intro x kk s
  refine ⟨_, rfl, fun k _ => ?_, fun zero => ?_, rfl, fun r other => ?_, rfl,
    ((keeps_withDraws s _).setReg x _).applyOutcome _⟩
  · simp [nextDraw]
  · simp [zero]
  · rw [State.reg_applyOutcome, State.reg_setReg, if_neg other.symm]
    rfl

end Sys2Proof.Machine
end

section
/-! PROOFS. The index register and memory: accesses, block transfers and their bounds (42_index_memory.md R121 to R126,
20_memory.md R41 to R53). -/

namespace Sys2Proof.Machine

/-! ### The index register -/

/-- Settles O36: each is one write of `I`. -/
theorem indexRegisterInstructionsSetI : Obligations.IndexRegisterInstructionsSetI := by
  intro x s
  have byte : (zextByte (s.reg x)).toNat = (s.reg x).toNat := BitVec.toNat_setWidth_of_le (by decide)
  have glyph : (glyphAddr (s.reg x)).toNat = fontBase + 5 * (s.reg x).toNat := by
    have := (s.reg x).isLt
    rw [glyphAddr, BitVec.toNat_ofNat, Nat.mod_eq_of_lt (by rw [fontBase]; omega)]
  exact ⟨⟨_, rfl, (BitVec.toNat_add s.I _).trans (by rw [byte]), rfl, (keeps_withI s _).applyOutcome .advance2⟩,
    ⟨_, rfl, glyph, rfl, (keeps_withI s _).applyOutcome .advance2⟩⟩

/-! ### Memory -/

/-- A write of memory changes memory alone. -/
theorem keeps_withMem (s : State) (m : Memory) : Keeps [.mem] s { s with mem := m } := by
  intro p hp
  cases p <;> simp_all [Part.Same, State.reg, State.pixel]

theorem Memory.rising_of_wf {m : Memory} (wf : m.wf = true) : m.Rising := ((Memory.wf_iff m).1 wf).1

/-- Settles O37: the bounds test decides, and a write is `Memory.set`. -/
theorem memoryPrimitivesRaiseAboveTheTop : Obligations.MemoryPrimitivesRaiseAboveTheTop := by
  intro s a v wf
  have get := Memory.get_set (Memory.rising_of_wf wf) a (v := v)
  constructor
  · intro above
    have outside : ¬ a < Config.memSize := by rw [Config.memSize_eq]; omega
    exact ⟨if_neg outside, if_neg outside⟩
  · intro le
    have inside : a < Config.memSize := by rw [Config.memSize_eq]; omega
    exact ⟨if_pos inside, _, if_pos inside, (get a).trans (if_pos rfl), fun b other => (get b).trans (if_neg other.symm),
      keeps_withMem s _⟩

/-- A byte after a store to memory in canonical form. -/
theorem State.byteAt_store {s : State} (wf : s.mem.wf = true) (base a : Nat) (vs : List Byte) :
    State.byteAt { s with mem := s.mem.setAll base vs } a =
      if base ≤ a ∧ a < base + vs.length then vs.getD (a - base) 0 else s.byteAt a :=
  Memory.get_setAll (Memory.rising_of_wf wf) base a vs

theorem State.storeBytes_of_le (s : State) (base : Nat) (vs : List Byte) (inside : base + vs.length ≤ 0x1000) :
    s.storeBytes base vs = .ok { s with mem := s.mem.setAll base vs } := by
  obtain ⟨_, _, _⟩ | ⟨_, stores⟩ := s.storeBytes_cases base vs
  · omega
  · exact stores

theorem State.storeBytes_of_outside (s : State) (base : Nat) (vs : List Byte) (nonempty : 1 ≤ vs.length)
    (outside : 0x1000 < base + vs.length) : s.storeBytes base vs = .error (.memoryBounds base) := by
  obtain ⟨_, _, raises⟩ | ⟨_, _⟩ := s.storeBytes_cases base vs
  · exact raises
  · omega

theorem State.loadBytes_of_le (s : State) (base n : Nat) (inside : n = 0 ∨ base + n ≤ 0x1000) :
    s.loadBytes base n = .ok (s.bytesAt base n) := by
  obtain ⟨_, _, _⟩ | ⟨_, loads⟩ := s.loadBytes_cases base n
  · omega
  · exact loads

theorem State.loadBytes_of_outside (s : State) (base n : Nat) (nonempty : 1 ≤ n) (outside : 0x1000 < base + n) :
    s.loadBytes base n = .error (.memoryBounds base) := by
  obtain ⟨_, _, raises⟩ | ⟨_, _⟩ := s.loadBytes_cases base n
  · exact raises
  · omega

/-! ### Stores and loads -/

section
variable {x y : Reg} {n : Fin 16} {s t : State} {k : Fatal}

theorem execLdbX_of_ok (stores : s.storeBytes (indexBase s) (bcdDigits (s.reg x)) = .ok t) :
    exec (.ldbX x) s = complete t .advance2 := by
  simp [exec, execLdbX, stores]

theorem execLdbX_of_error (raises : s.storeBytes (indexBase s) (bcdDigits (s.reg x)) = .error k) :
    exec (.ldbX x) s = fatal s k := by
  simp [exec, execLdbX, raises]

theorem execLdiAll_of_ok (stores : s.storeBytes (indexBase s) (s.regs (x.val + 1)) = .ok t) :
    exec (.ldiAll x) s = complete t .advance2 := by
  simp [exec, execLdiAll, stores]

theorem execLdiAll_of_error (raises : s.storeBytes (indexBase s) (s.regs (x.val + 1)) = .error k) :
    exec (.ldiAll x) s = fatal s k := by
  simp [exec, execLdiAll, raises]

theorem execLdxAll_of_ok {vs : List Byte} (loads : s.loadBytes (indexBase s) (x.val + 1) = .ok vs) :
    exec (.ldxAll x) s = complete (s.setRegs 0 vs) .advance2 := by
  simp [exec, execLdxAll, loads]

theorem execLdxAll_of_error (raises : s.loadBytes (indexBase s) (x.val + 1) = .error k) :
    exec (.ldxAll x) s = fatal s k := by
  simp [exec, execLdxAll, raises]

theorem execDrw_of_error (raises : s.loadBytes (indexBase s) n.val = .error k) : exec (.drw x y n) s = fatal s k := by
  simp [exec, execDrw, raises]

end

/-- An instruction that stores `vs` from `I` where the range allows: the bytes of the range are `vs`, all others stay. -/
theorem exec_store {i : Instr} {s : State} {vs : List Byte} (wf : s.mem.wf = true)
    (runs : ∀ t, s.storeBytes (indexBase s) vs = .ok t → exec i s = complete t .advance2)
    (inside : indexBase s + vs.length ≤ 0x1000) :
    ∃ t, exec i s = .next t ∧ (∀ k < vs.length, t.byteAt (indexBase s + k) = vs.getD k 0) ∧
      (∀ a, a < indexBase s ∨ indexBase s + vs.length ≤ a → t.byteAt a = s.byteAt a) ∧ t.pc = s.pc + 2 ∧
      Keeps [.pc, .mem] s t := by
  refine ⟨_, runs _ (s.storeBytes_of_le _ _ inside), fun k hk => ?_, fun a ha => ?_, rfl,
    (keeps_withMem s _).applyOutcome _⟩
  · exact (State.byteAt_store wf _ _ _).trans (by rw [if_pos (by omega), Nat.add_sub_cancel_left])
  · exact (State.byteAt_store wf _ _ _).trans (by rw [if_neg (by omega)])

/-- The digits make up the byte, and each is a decimal digit (R123). -/
theorem bcdDigits_spec (v : Byte) : ((bcdDigits v).getD 0 0).toNat ≤ 2 ∧ ((bcdDigits v).getD 1 0).toNat ≤ 9 ∧
    ((bcdDigits v).getD 2 0).toNat ≤ 9 ∧
    100 * ((bcdDigits v).getD 0 0).toNat + 10 * ((bcdDigits v).getD 1 0).toNat + ((bcdDigits v).getD 2 0).toNat = v.toNat := by
  have := v.isLt
  have hundreds : ((bcdDigits v).getD 0 0).toNat = v.toNat / 100 % 256 := BitVec.toNat_ofNat _ 8
  have tens : ((bcdDigits v).getD 1 0).toNat = v.toNat / 10 % 10 % 256 := BitVec.toNat_ofNat _ 8
  have ones : ((bcdDigits v).getD 2 0).toNat = v.toNat % 10 % 256 := BitVec.toNat_ofNat _ 8
  omega

/-- Settles O38: one store, of the three digits. -/
theorem ldbStoresThreeDecimalDigits : Obligations.LdbStoresThreeDecimalDigits := by
  intro x s wf inside
  have range : indexBase s + (bcdDigits (s.reg x)).length ≤ 0x1000 := by simp only [indexBase, bcdDigits, List.length]; omega
  obtain ⟨t, runs, stored, others, pc, keeps⟩ := exec_store wf (fun _ => execLdbX_of_ok) range
  have digits := bcdDigits_spec (s.reg x)
  rw [← stored 0 (by simp [bcdDigits]), ← stored 1 (by simp [bcdDigits]), ← stored 2 (by simp [bcdDigits])] at digits
  obtain ⟨hundreds, tens, ones, sum⟩ := digits
  exact ⟨t, runs, hundreds, tens, ones, sum, others, pc, keeps⟩

/-- Settles O39: one store, of the registers in order. -/
theorem ldiAllStoresRegistersZeroToX : Obligations.LdiAllStoresRegistersZeroToX := by
  intro x s wf inside
  have length : (s.regs (x.val + 1)).length = x.val + 1 := s.length_regs _
  obtain ⟨t, runs, stored, others, pc, keeps⟩ :=
    exec_store wf (fun _ => execLdiAll_of_ok (x := x)) (by rw [length, indexBase]; omega)
  rw [length] at stored others
  refine ⟨t, runs, fun r hr => ?_, fun a ha => others a (by omega), pc, keeps⟩
  have upTo : r.val < x.val + 1 := Nat.lt_succ_of_le hr
  rw [stored r.val upTo, s.getD_regs upTo, Fin.ofNat_val_eq_self]

/-- Settles O40: one run of register writes, of the bytes in order. -/
theorem ldxAllLoadsRegistersZeroToX : Obligations.LdxAllLoadsRegistersZeroToX := by
  intro x s inside
  have reg := s.reg_setRegs 0 (s.bytesAt (indexBase s) (x.val + 1)) (by rw [State.length_bytesAt]; omega)
  rw [State.length_bytesAt] at reg
  have loads := s.loadBytes_of_le (indexBase s) (x.val + 1) (by rw [indexBase]; omega)
  refine ⟨_, execLdxAll_of_ok loads, fun r hr => ?_, fun r hr => ?_, ?_, (keeps_setRegs s 0 _).applyOutcome _⟩
  · have upTo : r.val < x.val + 1 := Nat.lt_succ_of_le hr
    rw [State.reg_applyOutcome, reg, if_pos (by omega), Nat.sub_zero, s.getD_bytesAt _ upTo]
  · have above : x.val < r.val := hr
    rw [State.reg_applyOutcome, reg, if_neg (by omega)]
  · rw [State.applyOutcome_advance2_pc, State.setRegs_pc]

/-- Settles O41: the range test comes before the first access. -/
theorem rangeAboveTheTopIsFatalWithoutEffect : Obligations.RangeAboveTheTopIsFatalWithoutEffect := by
  intro x y n s
  have digits : (bcdDigits (s.reg x)).length = 3 := rfl
  have regs : (s.regs (x.val + 1)).length = x.val + 1 := s.length_regs _
  exact ⟨fun above => execLdbX_of_error (s.storeBytes_of_outside _ _ (by omega) (by rw [indexBase]; omega)),
    fun above => ⟨execLdiAll_of_error (s.storeBytes_of_outside _ _ (by omega) (by rw [indexBase]; omega)),
      execLdxAll_of_error (s.loadBytes_of_outside _ _ (by omega) (by rw [indexBase]; omega))⟩,
    fun nonempty above => execDrw_of_error (s.loadBytes_of_outside _ _ nonempty above)⟩

/-- Settles O42: the load reads the bytes the store wrote, at the `I` the store left. -/
theorem ldxAllRestoresWhatLdiAllStored : Obligations.LdxAllRestoresWhatLdiAllStored := by
  intro x s t u v wf inside store between load r hr
  obtain ⟨t', store', stored, -, -, keeps⟩ := ldiAllStoresRegistersZeroToX x s wf inside
  obtain rfl := exec_unique store store'
  have sameI : u.I = s.I := (keeps .I (by simp)).trans (between .I (by simp))
  obtain ⟨v', load', loaded, -⟩ := ldxAllLoadsRegistersZeroToX x u (by rwa [sameI])
  obtain rfl := exec_unique load load'
  have sameByte : u.byteAt (indexBase u + r.val) = t.byteAt (indexBase u + r.val) := between .mem (by simp) _
  rw [loaded r hr, sameByte, indexBase, sameI]
  exact stored r hr

/-- Settles O43: `I` is the new `pc`, so the fetch reads the first two bytes stored. -/
theorem storedCodeIsFetchedAtOnce : Obligations.StoredCodeIsFetchedAtOnce := by
  intro x s t wf two next low inside store
  obtain ⟨t', store', stored, -, pc, -⟩ := ldiAllStoresRegistersZeroToX x s wf inside
  obtain rfl := exec_unique store store'
  have pcNat : t.pc.toNat = indexBase s := by rw [pc, ← next, indexBase]
  rw [t.fetch_of_le (by rw [pcNat, indexBase]; omega), pcNat]
  congr 2
  · exact stored 0 (Fin.zero_le _)
  · exact stored 1 two

end Sys2Proof.Machine
end

section
/-! PROOFS. The display: CLS, and the sprite compositor as a list of pixel plots at distinct places (43_display.md R131 to
R133). -/

namespace Sys2Proof.Machine

/-- A write of the picture changes it alone. -/
theorem keeps_withFb (s : State) (fb : Framebuffer) : Keeps [.fb] s { s with fb := fb } := by
  intro p hp
  cases p <;> simp_all [Part.Same, State.byteAt, State.reg]

/-- Settles O44: one write of the picture, all dark. -/
theorem clsClearsEveryPixel : Obligations.ClsClearsEveryPixel :=
  fun s => ⟨_, rfl, Framebuffer.pixel_clear, rfl, (keeps_withFb s _).applyOutcome _⟩

/-! ### Plots -/

/-- One exclusive or of the compositor: where, and with which sprite bit. -/
structure Plot where
  col : Fin 64
  row : Fin 32
  bit : Bool

/-- The plot flips the pixel. -/
def Plot.lights (c : Fin 64) (r : Fin 32) (p : Plot) : Bool := p.bit && decide (p.col = c) && decide (p.row = r)

theorem Plot.lights_iff {c : Fin 64} {r : Fin 32} {p : Plot} :
    p.lights c r = true ↔ p.bit = true ∧ p.col = c ∧ p.row = r := by
  simp [Plot.lights, and_assoc]

/-- Two plots at different places. -/
def Plot.Apart (p q : Plot) : Prop := ¬ (p.col = q.col ∧ p.row = q.row)

/-- What one plot does to a picture and the collision seen so far. -/
def Drawing.plot (d : Drawing) (p : Plot) : Drawing := (d.1.xorPixel p.col p.row p.bit, d.2 || (p.bit && d.1.pixel p.col p.row))

theorem Drawing.pixel_plot (d : Drawing) (p : Plot) (c : Fin 64) (r : Fin 32) :
    (Drawing.plot d p).1.pixel c r = (d.1.pixel c r ^^ p.lights c r) :=
  Framebuffer.pixel_xorPixel _ _ _ _ _ _

/-- Plots at distinct places flip a pixel when one of them does: no second one flips it back. -/
theorem pixel_foldl_plot {ps : List Plot} (apart : ps.Pairwise Plot.Apart) (d : Drawing) (c : Fin 64) (r : Fin 32) :
    (ps.foldl Drawing.plot d).1.pixel c r = (d.1.pixel c r ^^ ps.any (Plot.lights c r)) := by
  induction ps generalizing d with
  | nil => simp
  | cons p ps ih =>
    obtain ⟨others, apart⟩ := List.pairwise_cons.1 apart
    have once : p.lights c r = true → ps.any (Plot.lights c r) = false := by
      intro hp
      obtain ⟨-, rfl, rfl⟩ := Plot.lights_iff.1 hp
      refine List.any_eq_false.2 fun q hq hits => ?_
      obtain ⟨-, col, row⟩ := Plot.lights_iff.1 hits
      exact others q hq ⟨col.symm, row.symm⟩
    rw [List.foldl_cons, ih apart, Drawing.pixel_plot, List.any_cons]
    cases hp : p.lights c r
    · simp
    · simp [once hp]

/-- Plots at distinct places collide when one of them meets a pixel that was lit before all of them. -/
theorem collision_foldl_plot {ps : List Plot} (apart : ps.Pairwise Plot.Apart) (d : Drawing) :
    (ps.foldl Drawing.plot d).2 = true ↔ d.2 = true ∨ ∃ p ∈ ps, p.bit = true ∧ d.1.pixel p.col p.row = true := by
  induction ps generalizing d with
  | nil => simp
  | cons p ps ih =>
    obtain ⟨others, apart⟩ := List.pairwise_cons.1 apart
    have untouched : ∀ q ∈ ps, (Drawing.plot d p).1.pixel q.col q.row = d.1.pixel q.col q.row := by
      intro q hq
      have miss : p.lights q.col q.row = false :=
        Bool.eq_false_iff.2 fun hits => others q hq (Plot.lights_iff.1 hits).2
      rw [Drawing.pixel_plot, miss, Bool.xor_false]
    have later : (∃ q ∈ ps, q.bit = true ∧ (Drawing.plot d p).1.pixel q.col q.row = true) ↔
        ∃ q ∈ ps, q.bit = true ∧ d.1.pixel q.col q.row = true :=
      exists_congr fun q => and_congr_right fun hq => by rw [untouched q hq]
    rw [List.foldl_cons, ih apart, later, List.exists_mem_cons_iff, ← or_assoc]
    simp [Drawing.plot]

/-! ### The sprite's plots -/

/-- The plot of column `col` of the sprite byte `b` in row `row`. -/
def spritePlot (vx vy row : Nat) (b : Byte) (col : Nat) : Plot :=
  ⟨Fin.ofNat 64 (vx + col), Fin.ofNat 32 (vy + row), spriteBit b col⟩

/-- The plots of the sprite's rows from number `row` on, in the compositor's order. -/
def spritePlots (vx vy : Nat) : Nat → List Byte → List Plot
  | _, [] => []
  | row, b :: bs => (List.range 8).map (spritePlot vx vy row b) ++ spritePlots vx vy (row + 1) bs

/-- The compositor carries out the sprite's plots (R132). -/
theorem drawRows_eq_foldl_plot (vx vy row : Nat) (bs : List Byte) (d : Drawing) :
    drawRows vx vy row bs d = (spritePlots vx vy row bs).foldl Drawing.plot d := by
  induction bs generalizing row d with
  | nil => rfl
  | cons b bs ih =>
    rw [drawRows, ih, spritePlots, List.foldl_append, List.foldl_map]
    rfl

theorem mem_spritePlots {vx vy row : Nat} {bs : List Byte} {p : Plot} : p ∈ spritePlots vx vy row bs ↔
    ∃ k j, k < bs.length ∧ j < 8 ∧ p = spritePlot vx vy (row + k) (bs.getD k 0) j := by
  induction bs generalizing row with
  | nil => simp [spritePlots]
  | cons b bs ih =>
    rw [spritePlots, List.mem_append, ih]
    constructor
    · rintro (first | ⟨k, j, hk, hj, rfl⟩)
      · obtain ⟨j, hj, rfl⟩ := List.mem_map.1 first
        exact ⟨0, j, by simp, List.mem_range.1 hj, rfl⟩
      · exact ⟨k + 1, j, by simpa using hk, hj, by rw [List.getD_cons_succ, Nat.add_right_comm, Nat.add_assoc]⟩
    · rintro ⟨k, j, hk, hj, rfl⟩
      cases k with
      | zero => exact .inl (List.mem_map.2 ⟨j, List.mem_range.2 hj, rfl⟩)
      | succ k =>
        exact .inr ⟨k, j, by simpa using hk, hj, by rw [List.getD_cons_succ, Nat.add_right_comm, Nat.add_assoc]⟩

/-- Up to 32 rows of 8 columns wrap to distinct places. -/
theorem spritePlots_apart {vx vy row : Nat} {bs : List Byte} (short : bs.length ≤ 32) :
    (spritePlots vx vy row bs).Pairwise Plot.Apart := by
  induction bs generalizing row with
  | nil => exact .nil
  | cons b bs ih =>
    rw [List.length_cons] at short
    refine List.pairwise_append.2 ⟨?_, ih (by omega), ?_⟩
    · refine List.pairwise_map.2 (List.pairwise_lt_range.imp_of_mem fun {i j} _ hj lt same => ?_)
      have cols : (vx + i) % 64 = (vx + j) % 64 := congrArg Fin.val same.1
      have := List.mem_range.1 hj
      omega
    · rintro p hp q hq same
      obtain ⟨j, -, rfl⟩ := List.mem_map.1 hp
      obtain ⟨k, j', hk, -, rfl⟩ := mem_spritePlots.1 hq
      have rows : (vy + row) % 32 = (vy + (row + 1 + k)) % 32 := congrArg Fin.val same.2
      omega

/-- The mask of R133 is what the plots of the bytes at `I` flip. -/
theorem any_lights_iff_spriteLit (s : State) (vx vy n : Nat) (c : Fin 64) (r : Fin 32) :
    (spritePlots vx vy 0 (s.bytesAt (indexBase s) n)).any (Plot.lights c r) = true ↔ SpriteLit s vx vy n c r := by
  rw [List.any_eq_true]
  constructor
  · rintro ⟨p, hp, hits⟩
    obtain ⟨k, j, hk, hj, rfl⟩ := mem_spritePlots.1 hp
    obtain ⟨bit, rfl, rfl⟩ := Plot.lights_iff.1 hits
    rw [State.length_bytesAt] at hk
    refine ⟨k, j, hk, hj, rfl, by simp [spritePlot], ?_⟩
    rw [← indexBase, ← s.getD_bytesAt (indexBase s) hk]
    exact bit
  · rintro ⟨k, j, hk, hj, col, row, bit⟩
    refine ⟨_, mem_spritePlots.2 ⟨k, j, by simpa using hk, hj, rfl⟩, Plot.lights_iff.2 ⟨?_, Fin.ext col.symm, ?_⟩⟩
    · rw [← indexBase, ← s.getD_bytesAt (indexBase s) hk] at bit
      exact bit
    · exact Fin.ext (by simp [spritePlot, row])

/-! ### DRW -/

/-- What DRW draws: the sprite of the `n` bytes at `I`. -/
def drwDrawing (x y : Reg) (n : Fin 16) (s : State) : Drawing :=
  drawSprite (s.reg x) (s.reg y) (s.bytesAt (indexBase s) n.val) s.fb

theorem execDrw_of_ok {x y : Reg} {n : Fin 16} {s : State}
    (loads : s.loadBytes (indexBase s) n.val = .ok (s.bytesAt (indexBase s) n.val)) : exec (.drw x y n) s =
      complete ({ s with fb := (drwDrawing x y n s).1, drawRequested := true }.setReg 15
        (flagValue (drwDrawing x y n s).2)) .advance2 := by
  simp [exec, execDrw, loads, drwDrawing]

theorem drwDrawing_eq_foldl_plot (x y : Reg) (n : Fin 16) (s : State) : drwDrawing x y n s =
    (spritePlots (s.reg x).toNat (s.reg y).toNat 0 (s.bytesAt (indexBase s) n.val)).foldl Drawing.plot (s.fb, false) :=
  drawRows_eq_foldl_plot _ _ _ _ _

theorem bytesAt_short (n : Fin 16) (s : State) : (s.bytesAt (indexBase s) n.val).length ≤ 32 := by
  rw [State.length_bytesAt]; omega

theorem pixel_drwDrawing (x y : Reg) (n : Fin 16) (s : State) (c : Fin 64) (r : Fin 32) :
    (drwDrawing x y n s).1.pixel c r = true ↔
      ¬ (s.pixel c r = true ↔ SpriteLit s (s.reg x).toNat (s.reg y).toNat n.val c r) := by
  rw [drwDrawing_eq_foldl_plot, pixel_foldl_plot (spritePlots_apart (bytesAt_short n s)), ← any_lights_iff_spriteLit,
    bne_iff_ne, Ne, Bool.eq_iff_iff]
  rfl

theorem collision_drwDrawing (x y : Reg) (n : Fin 16) (s : State) : (drwDrawing x y n s).2 = true ↔
    ∃ c r, s.pixel c r = true ∧ SpriteLit s (s.reg x).toNat (s.reg y).toNat n.val c r := by
  rw [drwDrawing_eq_foldl_plot, collision_foldl_plot (spritePlots_apart (bytesAt_short n s))]
  simp only [← any_lights_iff_spriteLit, List.any_eq_true, Plot.lights_iff, Bool.false_eq_true, false_or]
  constructor
  · rintro ⟨p, hp, bit, lit⟩
    exact ⟨p.col, p.row, lit, p, hp, bit, rfl, rfl⟩
  · rintro ⟨c, r, lit, p, hp, bit, rfl, rfl⟩
    exact ⟨p, hp, bit, lit⟩

/-- A hand-over request with a new picture changes these two alone. -/
theorem keeps_withPicture (s : State) (fb : Framebuffer) (b : Bool) :
    Keeps [.fb, .drawRequested] s { s with fb := fb, drawRequested := b } := by
  intro p hp
  cases p <;> simp_all [Part.Same, State.byteAt, State.reg]

theorem keeps_drw (s : State) (fb : Framebuffer) (b : Bool) (v : Byte) :
    Keeps [.x, .fb, .drawRequested] s ({ s with fb := fb, drawRequested := b }.setReg 15 v) :=
  (keeps_withPicture s fb b).setReg 15 v

/-- Settles O45: the sprite's plots are at distinct places, so each pixel is flipped at most once and compared with what was lit
before the draw. -/
theorem drwXorsTheSpriteAndReportsCollision : Obligations.DrwXorsTheSpriteAndReportsCollision := by
  intro x y n s inside
  have collision := collision_drwDrawing x y n s
  refine ⟨_, execDrw_of_ok (s.loadBytes_of_le _ _ inside), pixel_drwDrawing x y n s, fun meets => ?_, fun misses => ?_,
    fun r other => ?_, rfl, rfl, (keeps_drw s _ _ _).applyOutcome _⟩
  · simp [collision.2 meets, flagValue]
  · simp [Bool.eq_false_iff.2 fun h => misses (collision.1 h), flagValue]
  · rw [State.reg_applyOutcome, State.reg_setReg, if_neg other.symm]
    rfl

/-- The mask depends on `I`, the bytes, and the place modulo the picture's size (R133). -/
theorem SpriteLit.congr {s t : State} {vx vy vx' vy' : Nat} (I : t.I = s.I) (bytes : ∀ a, t.byteAt a = s.byteAt a)
    (x : vx' % 64 = vx % 64) (y : vy' % 32 = vy % 32) (n : Nat) (c : Fin 64) (r : Fin 32) :
    SpriteLit t vx' vy' n c r ↔ SpriteLit s vx vy n c r := by
  have cols (j : Nat) : (vx' + j) % 64 = (vx + j) % 64 := by omega
  have rows (k : Nat) : (vy' + k) % 32 = (vy + k) % 32 := by omega
  simp only [SpriteLit, I, bytes, cols, rows]

/-- A sprite with a 1 bit covers a pixel. -/
theorem exists_spriteLit {s : State} {vx vy n k j : Nat} (hk : k < n) (hj : j < 8)
    (bit : (s.byteAt (s.I.toNat + k)).getLsbD j = true) : ∃ c r, SpriteLit s vx vy n c r := by
  refine ⟨Fin.ofNat 64 (vx + (7 - j)), Fin.ofNat 32 (vy + k), k, 7 - j, hk, by omega, rfl, rfl, ?_⟩
  rwa [show 7 - (7 - j) = j by omega]

/-- Settles O46: two exclusive ors with one mask cancel, and under the mask the second draw meets lit what the first met dark. -/
theorem drawingTwiceRestoresThePicture : Obligations.DrawingTwiceRestoresThePicture := by
  intro x y x' y' n s t u inside first sameX sameY second
  obtain ⟨t', first', picture, -, -, -, -, -, keeps⟩ := drwXorsTheSpriteAndReportsCollision x y n s inside
  obtain rfl := exec_unique first first'
  have sameI : t.I = s.I := keeps .I (by simp)
  obtain ⟨u', second', picture', meets, misses, -⟩ := drwXorsTheSpriteAndReportsCollision x' y' n t (by rwa [sameI])
  obtain rfl := exec_unique second second'
  simp only [SpriteLit.congr sameI (keeps .mem (by simp)) sameX sameY] at picture' meets misses
  have dark : (∃ c r, t.pixel c r = true ∧ SpriteLit s (s.reg x).toNat (s.reg y).toNat n.val c r) ↔
      ∃ c r, s.pixel c r = false ∧ SpriteLit s (s.reg x).toNat (s.reg y).toNat n.val c r :=
    exists_congr fun c => exists_congr fun r => and_congr_left fun lit => by simp [picture c r, lit]
  rw [dark] at meets misses
  refine ⟨fun c r => ?_, meets, misses, fun ⟨k, j, hk, hj, bit⟩ cleared => ?_⟩
  · rw [Bool.eq_iff_iff, picture' c r, picture c r]
    by_cases lit : SpriteLit s (s.reg x).toNat (s.reg y).toNat n.val c r <;> simp [lit]
  · obtain ⟨c, r, lit⟩ := exists_spriteLit hk hj bit
    exact meets ⟨c, r, by rw [State.pixel, cleared, Framebuffer.pixel_clear], lit⟩

end Sys2Proof.Machine
end

section
/-! PROOFS. The keypad: the key skips and the key wait (44_timer_keypad.md R140, R141, R143). -/

namespace Sys2Proof.Machine

theorem keyLevel_of_index (s : State) {v : Byte} {k : Fin 16} (index : v.toNat = k.val) : keyLevel s v = some s.key[k] := by
  simp [keyLevel, index]

theorem keyLevel_of_above (s : State) {v : Byte} (above : 15 < v.toNat) : keyLevel s v = none := by
  simp only [keyLevel, Vector.getElem?_eq_none_iff]
  omega

section
variable {s : State} (x : Reg) {down : Bool}

theorem execSkipKeyx_of_some (level : keyLevel s (s.reg x) = some down) :
    exec (.skipKeyx x) s = complete s (skipIf down) := by
  simp [exec, execSkipKeyx, level]

theorem execSkipKeyx_of_none (noKey : keyLevel s (s.reg x) = none) :
    exec (.skipKeyx x) s = fatal s (.keyIndexOutOfRange (s.reg x)) := by
  simp [exec, execSkipKeyx, noKey]

theorem execSkipnKeyx_of_some (level : keyLevel s (s.reg x) = some down) :
    exec (.skipnKeyx x) s = complete s (skipIf (!down)) := by
  simp [exec, execSkipnKeyx, level]

theorem execSkipnKeyx_of_none (noKey : keyLevel s (s.reg x) = none) :
    exec (.skipnKeyx x) s = fatal s (.keyIndexOutOfRange (s.reg x)) := by
  simp [exec, execSkipnKeyx, noKey]

end

/-- Settles O47: both read the key's level, and SKIPN.KEYX skips on its negation. -/
theorem keySkipsTestTheKeyLevel : Obligations.KeySkipsTestTheKeyLevel := by
  intro x k s index
  have level := keyLevel_of_index s index
  refine ⟨⟨_, execSkipKeyx_of_some x level, s.applyOutcome_skipIf_pc _, keeps_applyOutcome s _⟩,
    ⟨_, execSkipnKeyx_of_some x level, ?_, keeps_applyOutcome s _⟩⟩
  rw [State.applyOutcome_skipIf_pc]
  cases s.key[k] <;> rfl

/-- Settles O48: there is no key above 15. -/
theorem keyIndexAboveFifteenIsFatal : Obligations.KeyIndexAboveFifteenIsFatal :=
  fun x s above => ⟨execSkipKeyx_of_none x (keyLevel_of_above s above), execSkipnKeyx_of_none x (keyLevel_of_above s above)⟩

theorem keyEdge_iff (s : State) (k : Fin 16) : keyEdge s k = true ↔ s.key[k] = true ∧ s.keyprev[k] = false := by
  simp [keyEdge]

theorem firstKeyEdge_of_least {s : State} {k : Fin 16} (edge : keyEdge s k = true) (least : ∀ j < k, ¬ keyEdge s j = true) :
    firstKeyEdge s = some k := by
  rw [firstKeyEdge, List.find?_eq_some_iff_getElem]
  refine ⟨edge, k.val, by simp, by simp, fun j hj => ?_⟩
  simpa using least ⟨j, hj.trans k.isLt⟩ hj

theorem firstKeyEdge_of_none {s : State} (noEdge : ∀ k, ¬ keyEdge s k = true) : firstKeyEdge s = none :=
  List.find?_eq_none.2 fun k _ => noEdge k

theorem execLdxKey_of_some {s : State} {k : Fin 16} (x : Reg) (edge : firstKeyEdge s = some k) :
    exec (.ldxKey x) s = complete (s.setReg x (BitVec.ofNat 8 k.val)) .advance2 := by
  simp [exec, execLdxKey, edge]

theorem execLdxKey_of_none {s : State} (x : Reg) (noEdge : firstKeyEdge s = none) :
    exec (.ldxKey x) s = complete s .hold := by
  simp [exec, execLdxKey, noEdge]

/-- Settles O49: the least key with an edge is the one found, and its index is one register write. -/
theorem keyWaitStoresTheLowestEdge : Obligations.KeyWaitStoresTheLowestEdge := by
  intro x k s down up least
  have edge : firstKeyEdge s = some k :=
    firstKeyEdge_of_least ((keyEdge_iff s k).2 ⟨down, up⟩) fun j hj hits => least j hj ((keyEdge_iff s j).1 hits)
  have fits : (BitVec.ofNat 8 k.val).toNat = k.val := by rw [BitVec.toNat_ofNat]; omega
  exact exec_setReg (P := fun v => v.toNat = k.val) (execLdxKey_of_some x edge) fits

/-- Settles O50: no edge is found, and the outcome Hold changes nothing. -/
theorem keyWaitHoldsWithoutAnEdge : Obligations.KeyWaitHoldsWithoutAnEdge := by
  intro x s held
  refine execLdxKey_of_none x (firstKeyEdge_of_none fun k edge => ?_)
  obtain ⟨down, up⟩ := (keyEdge_iff s k).1 edge
  exact absurd ((held k down).symm.trans up) (by decide)

end Sys2Proof.Machine
end

section
/-! PROOFS. The frame sequencer and the tone (60_exceptions.md R156 to R166, 20_memory.md R50). -/

namespace Sys2Proof.Machine

/-- Settles O53: one write of the latch, by the levels it is compared with. -/
theorem latchCopyHidesEveryEdge : Obligations.LatchCopyHidesEveryEdge := by
  intro s
  refine ⟨fun k => rfl, fun p hp => ?_, fun k => ?_⟩
  · cases p <;> simp_all [Part.Same, State.byteAt, State.reg, State.pixel]
  · simp [keyEdge]

theorem keeps_tickTimers (s : State) : Keeps [.dt, .st] s s.tickTimers := by
  intro p hp
  cases p <;> simp_all [Part.Same, State.byteAt, State.reg, State.pixel]

/-- Settles O52: each tick takes one off both timers; the second part by induction on the count of ticks. -/
theorem tickCountsDownToZero : Obligations.TickCountsDownToZero := by
  intro s
  refine ⟨⟨toNat_tickTimer _, toNat_tickTimer _, keeps_tickTimers s⟩, fun k => ?_⟩
  induction k with
  | zero => exact ⟨rfl, rfl⟩
  | succ k ih =>
    obtain ⟨dt, st⟩ := ih
    rw [Function.iterate_succ_apply', State.tickTimers_dt, State.tickTimers_st, toNat_tickTimer, toNat_tickTimer, dt, st]
    exact ⟨Nat.sub_sub _ _ _, Nat.sub_sub _ _ _⟩

/-- Settles O54: the fields a boundary leaves, read off its law. -/
theorem frameBoundaryServicesTimersKeysAndHost : Obligations.FrameBoundaryServicesTimersKeysAndHost := by
  intro s
  refine ⟨s.frameBoundary_keyprev, s.frameBoundary_key, ?_, ?_, s.frameBoundary_stBeforeTick, fun asked => ?_,
    fun unasked => ?_, s.frameBoundary_drawRequested, ?_⟩
  · rw [State.frameBoundary_dt, toNat_tickTimer]
  · rw [State.frameBoundary_st, toNat_tickTimer]
  · rw [State.frameBoundary_fbOut, if_pos asked]
  · rw [State.frameBoundary_fbOut, unasked]
    rfl
  · rw [State.frameBoundary_exitRequested, Bool.or_eq_true]

/-- Settles O55: part by part. -/
theorem frameBoundaryNeverTouchesTheProgram : Obligations.FrameBoundaryNeverTouchesTheProgram := by
  intro s p hp
  cases p <;> simp_all [Part.Same, boundaryParts, State.byteAt, State.reg, State.pixel]

/-- A write of the step count changes it alone. -/
theorem keeps_withFrameStep (s : State) (n : Nat) : Keeps [.frameStep] s { s with frameStep := n } := by
  intro p hp
  cases p <;> simp_all [Part.Same, State.byteAt, State.reg, State.pixel]

/-- The step count takes no part in a frame boundary. -/
theorem keeps_frameBoundary_withFrameStep (s : State) (n : Nat) :
    Keeps [.frameStep] s.frameBoundary { s with frameStep := n }.frameBoundary := by
  intro p hp
  cases p <;> simp_all [Part.Same, State.byteAt, State.reg, State.pixel, State.nextSample]

/-- Settles O56: the two cases of the sequencer. -/
theorem batchEndsWithAFrameBoundary : Obligations.BatchEndsWithAFrameBoundary := by
  intro t running
  obtain ⟨halted, -⟩ | ⟨-, within, counts⟩ | ⟨-, completes, services⟩ := t.sequence_cases
  · exact absurd (halted.symm.trans running) (by decide)
  · rw [counts]
    exact ⟨fun _ => ⟨rfl, keeps_withFrameStep t _⟩, fun completes => by omega⟩
  · rw [services]
    exact ⟨fun within => by omega,
      fun _ => ⟨State.frameBoundary_frameStep _, fun p hp => keeps_frameBoundary_withFrameStep t 0 p (by simpa using hp)⟩⟩

/-- Settles O58: the latch holds the old levels, the keys those of the sample. -/
theorem pollBringsExactlyTheNewKeyEdges : Obligations.PollBringsExactlyTheNewKeyEdges := by
  intro s k
  rw [keyEdge_iff, State.frameBoundary_key, State.frameBoundary_keyprev]

/-! ### The end of a step -/

theorem State.endStep_of_halted {s : State} (halted : s.exitRequested = true) : s.endStep = s := if_pos halted

theorem State.endStep_of_running {s : State} (running : s.exitRequested = false) : s.endStep = s.checkPc.sequence := by
  simp [State.endStep, running]

/-- No boundary comes after a raise (R152). -/
theorem State.sequence_raiseFatal (s : State) (k : Fatal) : (s.raiseFatal k).sequence = s.raiseFatal k := if_pos rfl

/-- Settles O8: CheckPc comes first, and its raise leaves nothing to the sequencer. -/
theorem endOfStepChecksThePc : Obligations.EndOfStepChecksThePc := by
  intro t
  refine ⟨State.endStep_of_halted, fun running => ?_⟩
  rw [State.endStep_of_running running]
  refine ⟨fun outside => ?_, fun low high odd => ?_, fun legal => ?_⟩
  · rw [t.checkPc_of_outside outside, State.sequence_raiseFatal]
  · rw [t.checkPc_of_odd low high odd, State.sequence_raiseFatal]
  · rw [t.checkPc_of_legal legal]

/-- What follows an instruction: nothing after a raise, else CheckPc's own raise, else the sequencer. -/
theorem State.endStep_cases (s : State) :
    (s.exitRequested = true ∧ s.endStep = s) ∨
    (s.exitRequested = false ∧ ¬ LegalPc s.pc ∧ ∃ k, s.endStep = s.raiseFatal k) ∨
    (s.exitRequested = false ∧ LegalPc s.pc ∧ s.endStep = s.sequence) := by
  cases running : s.exitRequested
  case true => exact .inl ⟨rfl, State.endStep_of_halted running⟩
  case false =>
    obtain ⟨outside, odd, passes⟩ := (endOfStepChecksThePc s).2 running
    by_cases legal : LegalPc s.pc
    · exact .inr (.inr ⟨rfl, legal, passes legal⟩)
    · refine .inr (.inl ⟨rfl, legal, ?_⟩)
      unfold LegalPc at legal
      by_cases out : s.pc.toNat < 0x200 ∨ 0xFFF < s.pc.toNat
      · exact ⟨_, outside out⟩
      · exact ⟨_, odd (by omega) (by omega) (by omega)⟩

theorem State.toneBeforeTick_iff (s : State) : s.toneBeforeTick = true ↔ s.stBeforeTick.toNat > 0 := decide_eq_true_iff

/-- Settles O59: a boundary records the tone before its tick; whatever else ends the step leaves `st`. -/
theorem toneShowsWhatEveryStepAndTickLeft : Obligations.ToneShowsWhatEveryStepAndTickLeft := by
  intro t running
  rw [State.toneEnable_iff, State.toneBeforeTick_iff]
  obtain ⟨halted, -⟩ | ⟨-, illegal, k, ends⟩ | ⟨-, legal, ends⟩ := t.endStep_cases
  · exact absurd (halted.symm.trans running) (by decide)
  · rw [ends]
    exact ⟨fun _ => .rfl, fun _ => .rfl, fun legal => absurd legal illegal⟩
  · rw [ends]
    refine ⟨fun illegal => absurd legal illegal, ?_⟩
    obtain ⟨halted, -⟩ | ⟨-, within, counts⟩ | ⟨-, completes, services⟩ := t.sequence_cases
    · exact absurd (halted.symm.trans running) (by decide)
    · rw [counts]
      exact ⟨fun _ => .rfl, fun _ completes => by omega⟩
    · rw [services, State.frameBoundary_stBeforeTick, State.frameBoundary_st, toNat_tickTimer]
      exact ⟨fun within => by omega, fun _ _ => ⟨.rfl, Nat.sub_pos_iff_lt⟩⟩

end Sys2Proof.Machine
end

section
/-! PROOFS. Reset and the program load (10_state.md R28 to R31, 70_reset_and_hazards.md R180, R181). -/

namespace Sys2Proof.Machine

theorem byteAt_reset (a : Nat) : State.reset.byteAt a = Memory.resetByte a := rfl

theorem resetByte_glyph {d k : Nat} (hd : d < 16) (hk : k < 5) :
    Memory.resetByte (fontBase + 5 * d + k) = (fontGlyphs.getD d []).getD k 0 := by
  have glyph : (fontBase + 5 * d + k - fontBase) / 5 = d := by omega
  have byte : (fontBase + 5 * d + k - fontBase) % 5 = k := by omega
  rw [Memory.resetByte, if_pos (by omega), fontByte, glyph, byte]

/-- Settles O18: the 80 bytes from `FONT_BASE` are 16 glyphs of 5. -/
theorem resetLeavesFontAndZeroMemory : Obligations.ResetLeavesFontAndZeroMemory :=
  ⟨rfl, fun _ _ hd hk => resetByte_glyph hd hk, fun _ outside => if_neg (by omega)⟩

theorem boot_of_le (f r : Nat) {rom : List Byte} (fits : rom.length ≤ 3584) : State.boot f r rom =
    some { State.reset with mem := State.reset.mem.setAll 0x200 rom, frequency := f, refreshRate := r } :=
  if_pos (by rw [Config.progBase_eq, Config.memSize_eq]; omega)

theorem boot_of_gt (f r : Nat) {rom : List Byte} (long : 3584 < rom.length) : State.boot f r rom = none :=
  if_neg (by rw [Config.progBase_eq, Config.memSize_eq]; omega)

/-- Settles O19: a boot is one run of writes over reset's memory, and the two parameters. -/
theorem bootPlacesTheImageVerbatim : Obligations.BootPlacesTheImageVerbatim := by
  intro f r rom
  refine ⟨boot_of_gt f r, fun fits => ⟨_, boot_of_le f r fits, rfl, fun j hj => ?_, fun a ha => ?_, fun p hp => ?_⟩⟩
  · exact (Memory.get_setAll .nil _ _ _).trans (by rw [if_pos (by omega), Nat.add_sub_cancel_left])
  · exact (Memory.get_setAll .nil _ _ _).trans (if_neg (by omega))
  · cases p <;> simp_all [Part.Same, State.reg, State.pixel]

/-- The fields a boot leaves as at reset meet the invariant with any canonical memory and any two parameters. -/
theorem inv_reset_with {m : Memory} (wf : m.wf = true) (f r : Nat) :
    Inv { State.reset with mem := m, frequency := f, refreshRate := r } where
  memory := wf
  pc _ := by
    show LegalPc 0x200
    unfold LegalPc; decide
  saved _ below := absurd below (Nat.not_lt_zero _)
  frame := Nat.eq_zero_or_pos _

/-- Settles O11: the empty memory list is canonical. -/
theorem resetMeetsTheInvariant : Obligations.ResetMeetsTheInvariant := inv_reset_with Memory.wf_nil 60000 60

/-- Settles O12: an image that fits keeps memory canonical. -/
theorem bootMeetsTheInvariant : Obligations.BootMeetsTheInvariant := by
  intro f r rom s boots
  obtain long | fits := Nat.lt_or_ge 3584 rom.length
  · rw [boot_of_gt f r long] at boots
    cases boots
  · rw [boot_of_le f r fits] at boots
    obtain rfl := Option.some.inj boots
    exact inv_reset_with (Memory.wf_setAll Memory.wf_nil _ _ (by omega)) f r

end Sys2Proof.Machine
end

section
/-! PROOFS. The whole machine: what an instruction can do, what a step can do, the invariant, and how a run ends
(10_state.md R10, 40_control_flow.md R80, 60_exceptions.md R151, R152, 70_reset_and_hazards.md R184, R189). -/

namespace Sys2Proof.Machine

/-- Settles O9: two writes, and the law of their frame. -/
theorem raisingSetsExitAndReportsOnly : Obligations.RaisingSetsExitAndReportsOnly :=
  fun s k => ⟨rfl, rfl, keeps_raiseFatal s k⟩

/-! ### What an instruction can do -/

/-- The instruction completes within its own parts and keeps memory canonical, or raises and does nothing else. -/
def Effect (i : Instr) (s : State) : Prop :=
  ∃ t, exec i s = .next t ∧
    ((Keeps (writtenParts i) s t ∧ (s.mem.wf = true → t.mem.wf = true)) ∨ ∃ k, t = s.raiseFatal k)

section
variable {i : Instr} {s : State}

theorem Effect.completed {u : State} {o : PcOutcome} {parts : List Part} (runs : exec i s = complete u o)
    (written : writtenParts i = .pc :: parts) (keeps : Keeps parts s u) (mem : s.mem.wf = true → u.mem.wf = true) :
    Effect i s :=
  ⟨_, runs, .inl ⟨written ▸ keeps.applyOutcome o, by rwa [State.applyOutcome_mem]⟩⟩

theorem Effect.raised {k : Fatal} (raises : exec i s = fatal s k) : Effect i s := ⟨_, raises, .inr ⟨k, rfl⟩⟩

/-- A store that passes the range test lies inside memory. -/
theorem Effect.stored {vs : List Byte} (nonempty : 1 ≤ vs.length) (written : writtenParts i = [.pc, .mem])
    (runs : ∀ t, s.storeBytes (indexBase s) vs = .ok t → exec i s = complete t .advance2)
    (raises : ∀ k, s.storeBytes (indexBase s) vs = .error k → exec i s = fatal s k) : Effect i s := by
  obtain ⟨-, -, outside⟩ | ⟨inside, stores⟩ := s.storeBytes_cases (indexBase s) vs
  · exact .raised (raises _ outside)
  · exact .completed (runs _ stores) written (keeps_withMem s _) fun wf => Memory.wf_setAll wf _ _ (by omega)

end

theorem keeps_refl (parts : List Part) (s : State) : Keeps parts s s := fun p _ => .refl p s

theorem exec_effect (i : Instr) (s : State) : Effect i s := by
  cases i with
  | jmp | jmpV | skipCmp | skipNcmp | skipRcmp | sne => exact .completed rfl rfl (keeps_refl _ s) id
  | mvi | addImm | mov | or | and | xor | ldxDt => exact .completed rfl rfl (keeps_setReg s _ _) id
  | add | sub | shr | subn | shl => exact .completed rfl rfl (keeps_writeFlagged s _ _) id
  | rand => exact .completed rfl rfl ((keeps_withDraws s _).setReg _ _) id
  | ldi | addiX | ldiFx => exact .completed rfl rfl (keeps_withI s _) id
  | cls => exact .completed rfl rfl (keeps_withFb s _) id
  | lddtX => exact .completed rfl rfl (keeps_withDt s _) id
  | ldstX => exact .completed rfl rfl (keeps_withSt s _) id
  | unrecognized => exact .completed rfl rfl (keeps_withDiagOut s _) id
  | call nnn =>
    obtain room | full : s.sp.val < 16 ∨ s.sp.val = 16 := by omega
    · exact .completed (execCall_of_lt nnn s room) rfl (keeps_withStack s _ _) id
    · exact .raised (execCall_of_full nnn s full)
  | ret =>
    cases count : s.sp.val with
    | zero => exact .raised (execRet_of_empty s count)
    | succ n => exact .completed (execRet_of_succ s count) rfl (keeps_withSp s _) id
  | skipKeyx x =>
    cases level : keyLevel s (s.reg x) with
    | none => exact .raised (execSkipKeyx_of_none x level)
    | some down => exact .completed (execSkipKeyx_of_some x level) rfl (keeps_refl _ s) id
  | skipnKeyx x =>
    cases level : keyLevel s (s.reg x) with
    | none => exact .raised (execSkipnKeyx_of_none x level)
    | some down => exact .completed (execSkipnKeyx_of_some x level) rfl (keeps_refl _ s) id
  | ldxKey x =>
    cases edge : firstKeyEdge s with
    | none => exact .completed (execLdxKey_of_none x edge) rfl (keeps_refl _ s) id
    | some k => exact .completed (execLdxKey_of_some x edge) rfl (keeps_setReg s x _) id
  | drw x y n =>
    obtain ⟨-, -, outside⟩ | ⟨-, loads⟩ := s.loadBytes_cases (indexBase s) n.val
    · exact .raised (execDrw_of_error outside)
    · exact .completed (execDrw_of_ok loads) rfl (keeps_drw s _ _ _) id
  | ldxAll x =>
    obtain ⟨-, -, outside⟩ | ⟨-, loads⟩ := s.loadBytes_cases (indexBase s) (x.val + 1)
    · exact .raised (execLdxAll_of_error outside)
    · exact .completed (execLdxAll_of_ok loads) rfl (keeps_setRegs s 0 _) (by rw [State.setRegs_mem]; exact id)
  | ldbX x => exact .stored (by simp [bcdDigits]) rfl (fun _ => execLdbX_of_ok) fun _ => execLdbX_of_error
  | ldiAll x => exact .stored (by simp) rfl (fun _ => execLdiAll_of_ok) fun _ => execLdiAll_of_error

/-- Settles O16: the instruction's effect, memory's form left aside. -/
theorem instructionsWriteOnlyTheirOwnParts : Obligations.InstructionsWriteOnlyTheirOwnParts := by
  intro i s
  obtain ⟨t, runs, ⟨keeps, -⟩ | raises⟩ := exec_effect i s
  · exact ⟨t, runs, .inl keeps⟩
  · exact ⟨t, runs, .inr raises⟩

/-- The effect of a run that is known. -/
theorem effect_of_exec {i : Instr} {s u : State} (runs : exec i s = .next u) :
    (Keeps (writtenParts i) s u ∧ (s.mem.wf = true → u.mem.wf = true)) ∨ ∃ k, u = s.raiseFatal k := by
  obtain ⟨t, runs', effect⟩ := exec_effect i s
  obtain rfl := exec_unique runs runs'
  exact effect

/-- The parts that belong to the frame sequencer, the host and the platform: no instruction touches them. -/
def sequencerParts : List Part :=
  [.key, .keyprev, .frameStep, .hostIn, .polls, .fbOut, .stBeforeTick, .frequency, .refreshRate]

theorem sequencerParts_not_written (i : Instr) : ∀ p ∈ sequencerParts, p ∉ writtenParts i := by
  cases i <;> simp [sequencerParts, writtenParts]

theorem sequencerParts_not_fatal : ∀ p ∈ sequencerParts, p ∉ fatalParts := by decide

theorem exec_keeps_sequencerParts {i : Instr} {s u : State} (runs : exec i s = .next u) :
    ∀ p ∈ sequencerParts, p.Same s u := by
  intro p hp
  obtain ⟨keeps, -⟩ | ⟨k, rfl⟩ := effect_of_exec runs
  · exact keeps p (sequencerParts_not_written i p hp)
  · exact keeps_raiseFatal s k p (sequencerParts_not_fatal p hp)

theorem exec_frameStep {i : Instr} {s u : State} (runs : exec i s = .next u) : u.frameStep = s.frameStep :=
  exec_keeps_sequencerParts runs .frameStep (by decide)

theorem exec_stepsPerFrame {i : Instr} {s u : State} (runs : exec i s = .next u) : u.stepsPerFrame = s.stepsPerFrame := by
  have frequency : u.frequency = s.frequency := exec_keeps_sequencerParts runs .frequency (by decide)
  have refreshRate : u.refreshRate = s.refreshRate := exec_keeps_sequencerParts runs .refreshRate (by decide)
  rw [State.stepsPerFrame, frequency, refreshRate, State.stepsPerFrame]

theorem exec_nextSample {i : Instr} {s u : State} (runs : exec i s = .next u) : u.nextSample = s.nextSample := by
  have hostIn : u.hostIn = s.hostIn := exec_keeps_sequencerParts runs .hostIn (by decide)
  have polls : u.polls = s.polls := exec_keeps_sequencerParts runs .polls (by decide)
  rw [State.nextSample, hostIn, polls, State.nextSample]

theorem exitRequested_not_written (i : Instr) : .exitRequested ∉ writtenParts i := by
  cases i <;> simp [writtenParts]

/-! ### What a step can do -/

theorem step_of_halted {s : State} (halted : s.exitRequested = true) : step s = .next s := if_pos halted

theorem step_of_empty_batches {s : State} (running : s.exitRequested = false) (empty : s.stepsPerFrame = 0) :
    step s = .next s.frameBoundary := by
  simp [step, running, empty]

theorem step_of_fetch {s u : State} {op : Word} (running : s.exitRequested = false) (batches : s.stepsPerFrame ≠ 0)
    (fetched : s.fetch = .ok op) (runs : exec (decodeWord op) s = .next u) : step s = .next u.endStep := by
  simp [step, running, batches, fetched, runs]

/-- Settles O7: the decoder on bytes is the decoder on the word the fetch reads. -/
theorem stepRunsTheDecodedInstruction : Obligations.StepRunsTheDecodedInstruction := by
  intro s t i running batches inside decodes runs
  obtain rfl : decodeWord (wordOfBytes (s.byteAt s.pc.toNat) (s.byteAt (s.pc.toNat + 1))) = i := by
    simpa [decode] using decodes
  exact step_of_fetch running batches (s.fetch_of_le inside) runs

/-- Settles O57: the quotient is 0. -/
theorem emptyBatchesRunNoInstruction : Obligations.EmptyBatchesRunNoInstruction :=
  fun _s running less => step_of_empty_batches running (Nat.div_eq_of_lt less)

/-- A step that answers a next state is frozen, a bare frame boundary, or an instruction and what follows it. -/
theorem step_next_cases {s t : State} (steps : step s = .next t) :
    (s.exitRequested = true ∧ t = s) ∨
    (s.exitRequested = false ∧ s.stepsPerFrame = 0 ∧ t = s.frameBoundary) ∨
    (s.exitRequested = false ∧ ∃ i u, exec i s = .next u ∧ t = u.endStep) := by
  have next {t' : State} (steps' : step s = .next t') : t = t' :=
    Host.Outcome.next.inj (steps.symm.trans steps')
  obtain ⟨halted, stays⟩ | ⟨running, empty, services⟩ | ⟨-, -, -, faults⟩ | ⟨running, batches, op, fetched, -⟩ :=
    step_cases s
  · exact .inl ⟨halted, next stays⟩
  · exact .inr (.inl ⟨running, empty, next services⟩)
  · simp [steps] at faults
  · obtain ⟨u, runs, -⟩ := exec_effect (decodeWord op) s
    exact .inr (.inr ⟨running, _, u, runs, next (step_of_fetch running batches fetched runs)⟩)

/-- Settles O13: a legal `pc` is fetched from memory, and every instruction has a next state. -/
theorem stepAlwaysHasANextStateUnderTheInvariant : Obligations.StepAlwaysHasANextStateUnderTheInvariant := by
  intro s inv
  cases running : s.exitRequested with
  | true => exact ⟨_, step_of_halted running⟩
  | false =>
    by_cases batches : s.stepsPerFrame = 0
    · exact ⟨_, step_of_empty_batches running batches⟩
    · obtain ⟨-, high, -⟩ := inv.pc running
      have fetched := s.fetch_of_le high
      obtain ⟨u, runs, -⟩ := exec_effect (decodeWord (wordOfBytes (s.byteAt s.pc.toNat) (s.byteAt (s.pc.toNat + 1)))) s
      exact ⟨_, step_of_fetch running batches fetched runs⟩

/-- Settles O14: by induction on the number of steps. -/
theorem haltedMachineIsFrozenForEver : Obligations.HaltedMachineIsFrozenForEver := by
  intro s k halted
  have stays : core.step s = .next s := step_of_halted halted
  induction k with
  | zero => rfl
  | succ k ih => simp only [Host.Core.run, stays, ih]

/-! ### The invariant -/

/-- Every saved address is one a RET may return to (R85). -/
def SavedLegal (s : State) : Prop := ∀ k : Fin 16, k.val < s.sp.val → LegalPc s.stack[k]

/-- The invariant but for the `pc` an instruction leaves, which CheckPc has not judged yet. -/
structure InvButPc (s : State) : Prop where
  memory : s.mem.wf = true
  saved : SavedLegal s
  frame : s.stepsPerFrame = 0 ∨ s.frameStep < s.stepsPerFrame

theorem InvButPc.inv {s : State} (inv : InvButPc s) (pc : s.exitRequested = false → LegalPc s.pc) : Inv s :=
  ⟨inv.memory, pc, inv.saved, inv.frame⟩

theorem Inv.frameBoundary {s : State} (inv : Inv s) : Inv s.frameBoundary where
  memory := by rw [State.frameBoundary_mem]; exact inv.memory
  pc running := by
    rw [State.frameBoundary_exitRequested, Bool.or_eq_false_iff] at running
    rw [State.frameBoundary_pc]
    exact inv.pc running.1
  saved := by
    simp only [State.frameBoundary_stack, State.frameBoundary_sp]
    exact inv.saved
  frame := by
    simp only [State.stepsPerFrame, State.frameBoundary_frequency, State.frameBoundary_refreshRate, State.frameBoundary_frameStep]
    exact inv.frame

/-- CALL and RET alone touch the stack. -/
theorem stack_not_written (i : Instr) :
    (∃ nnn, i = .call nnn) ∨ i = .ret ∨ (.stack ∉ writtenParts i ∧ .sp ∉ writtenParts i) := by
  cases i <;> simp [writtenParts]

/-- CALL saves its own address, which is legal. -/
theorem call_keeps_saved {nnn : Addr12} {s u : State} (pc : LegalPc s.pc) (saved : SavedLegal s)
    (runs : exec (.call nnn) s = .next u) : SavedLegal u := by
  obtain room | full : s.sp.val < 16 ∨ s.sp.val = 16 := by omega
  · obtain ⟨u', runs', stack, sp, -⟩ := callPushesItsOwnAddress nnn s room
    obtain rfl := exec_unique runs runs'
    intro k below
    rw [stack]
    split
    · exact pc
    · exact saved k (by omega)
  · obtain rfl := exec_unique (execCall_of_full nnn s full) runs
    exact saved

/-- RET uncovers no new entry. -/
theorem ret_keeps_saved {s u : State} (saved : SavedLegal s) (runs : exec .ret s = .next u) : SavedLegal u := by
  cases count : s.sp.val with
  | zero =>
    obtain rfl := exec_unique (execRet_of_empty s count) runs
    exact saved
  | succ n =>
    obtain ⟨u', runs', sp, -, keeps⟩ := retResumesAfterTheSavedAddress s ⟨n, by omega⟩ count
    obtain rfl := exec_unique runs runs'
    intro k below
    rw [keeps .stack (by simp) k]
    exact saved k (by simp only at sp; omega)

theorem exec_keeps_saved {i : Instr} {s u : State} (pc : LegalPc s.pc) (saved : SavedLegal s) (runs : exec i s = .next u) :
    SavedLegal u := by
  obtain ⟨nnn, rfl⟩ | rfl | ⟨stack, sp⟩ := stack_not_written i
  · exact call_keeps_saved pc saved runs
  · exact ret_keeps_saved saved runs
  · obtain ⟨keeps, -⟩ | ⟨k, rfl⟩ := effect_of_exec runs
    · intro k below
      rw [keeps .stack stack k]
      exact saved k (keeps .sp sp ▸ below)
    · exact saved

theorem exec_invButPc {i : Instr} {s u : State} (inv : Inv s) (running : s.exitRequested = false) (runs : exec i s = .next u) :
    InvButPc u where
  memory := by
    obtain ⟨-, wf⟩ | ⟨k, rfl⟩ := effect_of_exec runs
    · exact wf inv.memory
    · exact inv.memory
  saved := exec_keeps_saved (inv.pc running) inv.saved runs
  frame := by rw [exec_stepsPerFrame runs, exec_frameStep runs]; exact inv.frame

/-- CheckPc lets only a legal `pc` through to the sequencer, which starts a full batch anew. -/
theorem InvButPc.endStep {u : State} (inv : InvButPc u) : Inv u.endStep := by
  obtain ⟨halted, ends⟩ | ⟨-, -, k, ends⟩ | ⟨-, legal, ends⟩ := u.endStep_cases
  · rw [ends]
    exact inv.inv fun running => absurd (halted.symm.trans running) (by decide)
  · rw [ends]
    exact ⟨inv.memory, fun running => absurd running (by simp), inv.saved, inv.frame⟩
  · rw [ends]
    obtain ⟨-, stays⟩ | ⟨-, within, counts⟩ | ⟨-, -, services⟩ := u.sequence_cases
    · rw [stays]
      exact inv.inv fun _ => legal
    · rw [counts]
      exact ⟨inv.memory, fun _ => legal, inv.saved, .inr within⟩
    · rw [services]
      exact Inv.frameBoundary ⟨inv.memory, fun _ => legal, inv.saved, Nat.eq_zero_or_pos _⟩

/-- Settles O10: by what a step can be; an instruction keeps all but the judged `pc`, and the end of the step restores that. -/
theorem stepKeepsTheInvariant : Obligations.StepKeepsTheInvariant := by
  intro s t inv steps
  obtain ⟨-, rfl⟩ | ⟨-, -, rfl⟩ | ⟨running, i, u, runs, rfl⟩ := step_next_cases steps
  · exact inv
  · exact inv.frameBoundary
  · exact (exec_invButPc inv running runs).endStep

/-! ### How a run ends, and when the host is serviced -/

theorem diagOut_not_written (i : Instr) : (∃ op, i = .unrecognized op) ∨ .diagOut ∉ writtenParts i := by
  cases i <;> simp [writtenParts]

/-- An instruction that raises nothing adds to the reports or leaves them. -/
theorem exec_diagOut {i : Instr} {s u : State} (runs : exec i s = .next u) (keeps : Keeps (writtenParts i) s u) :
    s.diagOut <:+ u.diagOut := by
  obtain ⟨op, rfl⟩ | kept := diagOut_not_written i
  · obtain ⟨u', runs', -, report, -⟩ := unrecognizedIsAReportedNoOp op s
    obtain rfl := exec_unique runs runs'
    exact report ▸ List.suffix_cons _ _
  · have same : u.diagOut = s.diagOut := keeps .diagOut kept
    exact same ▸ List.suffix_rfl

/-- Settles O15: the exit is set by the instruction's raise, by CheckPc's, or by the poll of a frame boundary. -/
theorem runEndsOnlyByFatalConditionOrQuit : Obligations.RunEndsOnlyByFatalConditionOrQuit := by
  intro s t steps running ended
  obtain ⟨halted, -⟩ | ⟨-, empty, rfl⟩ | ⟨-, i, u, runs, rfl⟩ := step_next_cases steps
  · exact absurd (halted.symm.trans running) (by decide)
  · rw [State.frameBoundary_exitRequested, running, Bool.false_or] at ended
    exact .inr ⟨ended, by omega⟩
  obtain ⟨keeps, -⟩ | ⟨k, rfl⟩ := effect_of_exec runs
  · have running' : u.exitRequested = false := keeps .exitRequested (exitRequested_not_written i) ▸ running
    obtain ⟨halted, -⟩ | ⟨-, -, k, ends⟩ | ⟨-, -, ends⟩ := u.endStep_cases
    · exact absurd (halted.symm.trans running') (by decide)
    · rw [ends]
      exact .inl ⟨k, _, rfl, exec_diagOut runs keeps⟩
    · rw [ends] at ended ⊢
      obtain ⟨halted, -⟩ | ⟨-, -, counts⟩ | ⟨-, completes, services⟩ := u.sequence_cases
      · exact absurd (halted.symm.trans running') (by decide)
      · rw [counts] at ended
        exact absurd (ended.symm.trans running') (by decide)
      · rw [services, State.frameBoundary_exitRequested] at ended
        have quit : (u.exitRequested || u.nextSample.quit) = true := ended
        rw [running', Bool.false_or, exec_nextSample runs] at quit
        rw [exec_stepsPerFrame runs, exec_frameStep runs] at completes
        exact .inr ⟨quit, completes⟩
  · rw [State.endStep_of_halted rfl]
    exact .inl ⟨k, _, rfl, List.suffix_rfl⟩

/-- Within a batch the end of a step counts or raises. -/
theorem keeps_endStep_within {u : State} (within : u.frameStep + 1 < u.stepsPerFrame) :
    Keeps (.frameStep :: fatalParts) u u.endStep := by
  obtain ⟨-, ends⟩ | ⟨-, -, k, ends⟩ | ⟨-, -, ends⟩ := u.endStep_cases
  · rw [ends]; exact keeps_refl _ u
  · rw [ends]; exact (keeps_raiseFatal u k).mono (by simp)
  · rw [ends]
    obtain ⟨-, stays⟩ | ⟨-, -, counts⟩ | ⟨-, completes, -⟩ := u.sequence_cases
    · rw [stays]; exact keeps_refl _ u
    · rw [counts]; exact (keeps_withFrameStep u _).mono (by simp)
    · omega

/-- The end of any step counts, raises or services the host. -/
theorem keeps_endStep (u : State) : Keeps (.frameStep :: fatalParts ++ boundaryParts) u u.endStep := by
  obtain ⟨-, ends⟩ | ⟨-, -, k, ends⟩ | ⟨-, -, ends⟩ := u.endStep_cases
  · rw [ends]; exact keeps_refl _ u
  · rw [ends]; exact (keeps_raiseFatal u k).mono (by simp)
  · rw [ends]
    obtain ⟨-, stays⟩ | ⟨-, -, counts⟩ | ⟨-, -, services⟩ := u.sequence_cases
    · rw [stays]; exact keeps_refl _ u
    · rw [counts]; exact (keeps_withFrameStep u _).mono (by simp)
    · rw [services]
      exact ((keeps_withFrameStep u 0).mono (by simp)).trans ((frameBoundaryNeverTouchesTheProgram _).mono (by simp))

/-- Settles O17: no instruction touches these parts, and within a batch nor does the end of the step. -/
theorem hostIsServicedOnlyAtFrameBoundaries : Obligations.HostIsServicedOnlyAtFrameBoundaries := by
  intro s t steps
  obtain ⟨-, rfl⟩ | ⟨-, empty, rfl⟩ | ⟨-, i, u, runs, rfl⟩ := step_next_cases steps
  · exact ⟨fun _ p _ => .refl p t, fun p _ => .refl p t⟩
  · exact ⟨fun within => by omega, fun p hp => frameBoundaryNeverTouchesTheProgram s p (by revert p; decide)⟩
  · have kept := exec_keeps_sequencerParts runs
    constructor
    · intro within p hp
      rw [← exec_frameStep runs, ← exec_stepsPerFrame runs] at within
      exact (kept p (by revert p; decide)).trans (keeps_endStep_within within p (by revert p; decide))
    · intro p hp
      exact (kept p (by revert p; decide)).trans (keeps_endStep u p (by revert p; decide))

end Sys2Proof.Machine
end
